-- ==== Sys2Proof/Word.lean ====
section
/-! DEFINITION. The widths of SPECT's values (00_scope.md rules R7, R8) and nothing else. -/

namespace Sys2Proof

/-- A general register's value: 256 bits (R7 `XLEN`, R20). -/
abbrev Val := BitVec 256

/-- A 32-bit word: an instruction (R80) or one memory transfer (R7 `WORD`). -/
abbrev Word := BitVec 32

/-- One byte of the data memory. -/
abbrev Byte := BitVec 8

/-- A 5-bit register field, which selects one of `R0`..`R31` (R7 `REG_FIELD_W`, R20). -/
abbrev RegNo := BitVec 5

/-- The 12-bit Immediate field of format I (R88). -/
abbrev Imm := BitVec 12

/-- A 16-bit byte address: the fields Addr and NewPC, the pc, a return address (R7, R24, R32). -/
abbrev Addr := BitVec 16

end Sys2Proof
end

