-- ==== Sys2Proof/Config.lean ====
section
/-! DEFINITION. What the spec leaves OPEN (00_scope.md rule R8, 92_eei_decisions.md): the types of the
platform's parameters, the values `State.reset` gives those that a start state needs, and the
uninterpreted functions and oracles, each an `opaque` constant without a body, so that nothing can be
proved of what it answers. The parameters themselves (`MEM_MAP`, `IMEM`, `RAR_DEPTH`, `PARITY_MODE`,
`HOST_BYTE_ORDER`) are fields of `State` that no instruction writes, so that every claim about every
state is a claim about every platform whose byte order is one of `ByteOrder`'s two
(notes/assumptions/2.md, notes/assumptions/18.md). -/

namespace Sys2Proof

/-- What bit 31, `p`, of an instruction word must be (R87, D2). -/
inductive ParityMode where
  | none
  | even
  | odd
  deriving DecidableEq, Repr

/-- `HOST_BYTE_ORDER`: the order of the four bytes inside a memory word, as a host sees them (R59, D10).
DESIGN CHOICE: the spec leaves the parameter OPEN and lists no values for it; the model admits these two
alone, and no mixed order of the four bytes (notes/assumptions/18.md). -/
inductive ByteOrder where
  | little
  | big
  deriving DecidableEq, Repr

/-- `RAR_DEPTH`, the number of return addresses that RAR holds: a positive integer (R8, R32, D13). -/
abbrev RarDepth := { n : Nat // 0 < n }

/-- One range of byte addresses of `MEM_MAP`, both ends included (R54). -/
structure AddrRange where
  first : Nat
  last : Nat
  deriving DecidableEq, Repr

/-- One key-bus request with its answer, an entry of the event history that R236 asks a model to record. -/
inductive KbusEvent where
  | read (type : BitVec 4) (slot : BitVec 8) (offset : BitVec 8) (err : Bool) (data : Val)
  | write (key : Val) (type : BitVec 4) (slot : BitVec 8) (offset : BitVec 8) (err : Bool)
  | op (type : BitVec 4) (slot : BitVec 8) (op : BitVec 4) (err : Bool)
  deriving DecidableEq, Repr

namespace Config

/-- How many bits the TMAC unit's state has. Nothing is known of it (R36, notes/assumptions/9.md). -/
opaque tmacWidth : Nat

end Config

/-- The state of the TMAC unit, a value of a type of which nothing is known (R36, R197):
bits, of an unknown number. DESIGN CHOICE, notes/assumptions/9.md. -/
abbrev TmacState := BitVec Config.tmacWidth

namespace Config

/-- `TMAC_INIT(mask)` (R197). -/
opaque tmacInit : BitVec 1024 → TmacState

/-- `TMAC_INITSTR(t, K, N)` (R197). -/
opaque tmacInitstr : TmacState → Val → BitVec 8 → TmacState

/-- `TMAC_UPDATE(t, d)` (R197). -/
opaque tmacUpdate : TmacState → BitVec 144 → TmacState

/-- `TMAC_RESULT(t)` (R197). -/
opaque tmacResult : TmacState → Val

/-- `TMAC_AFTER_RD(t)` (R197). -/
opaque tmacAfterRd : TmacState → TmacState

/-- `BLIND(a, b, m)` (R207). -/
opaque blind : Val → Val → Val → BitVec 512

/-- `draw_256()`: the value of the n-th draw of the run (R205, notes/assumptions/7.md). -/
opaque randomDraw : Nat → Val

/-- `KBUS_READ(type, slot, offset)` after the history given: the error bit and the data (R236). -/
opaque kbusRead : List KbusEvent → BitVec 4 → BitVec 8 → BitVec 8 → Bool × Val

/-- `KBUS_WRITE(key, type, slot, offset)` after the history given: the error bit (R236). -/
opaque kbusWrite : List KbusEvent → Val → BitVec 4 → BitVec 8 → BitVec 8 → Bool

/-- `KBUS_OP(type, slot, op)` after the history given: the error bit (R236). -/
opaque kbusOp : List KbusEvent → BitVec 4 → BitVec 8 → BitVec 4 → Bool

/-- `START_PC` (R8, R40) of `State.reset`. DESIGN CHOICE, notes/assumptions/3.md. -/
def startPc : Addr := 0x8000#16

/-- `RAR_DEPTH` (R8, R32) of `State.reset`. DESIGN CHOICE, notes/assumptions/3.md. -/
def rarDepth : RarDepth := ⟨4, by decide⟩

/-- `PARITY_MODE` (R8, R87) of `State.reset`: the mode the spec's printed words are for (D2).
DESIGN CHOICE, notes/assumptions/3.md. -/
def parityMode : ParityMode := .none

/-- `HOST_BYTE_ORDER` (R8, R59) of `State.reset`. DESIGN CHOICE, notes/assumptions/3.md. -/
def byteOrder : ByteOrder := .little

/-- `MEM_MAP` (R8, R54) of `State.reset`, for reads and for writes: the whole data address space of
R50. DESIGN CHOICE, notes/assumptions/3.md. -/
def memMap : List AddrRange := [⟨0x0000, 0xFFFF⟩]

end Config

end Sys2Proof
end

