-- ==== Sys2Proof/Syntax.lean ====
section
/-! DEFINITION. The 60 instructions of 30_encoding.md rule R90, one constructor of `Instr` per row of
spec/opcode_table.json, with the operands its format gives it (R83 to R86), and `Op`, the mnemonics. -/

namespace Sys2Proof

/-- The mnemonics, in the order of the table (R15, R90). -/
inductive Op where
  | add
  | sub
  | cmp
  | and
  | or
  | xor
  | not
  | sbit
  | cbit
  | lsl
  | lsr
  | rol
  | ror
  | rol8
  | ror8
  | rolin
  | rorin
  | swe
  | mul25519
  | mul256
  | addp
  | subp
  | mulp
  | redp
  | ldr
  | str
  | mov
  | cswap
  | zswap
  | hash
  | tmacIt
  | tmacUp
  | tmacRd
  | grv
  | scb
  | addi
  | subi
  | cmpi
  | andi
  | ori
  | xori
  | ldk
  | stk
  | kbo
  | movi
  | hashIt
  | tmacIs
  | ld
  | st
  | call
  | ret
  | brz
  | brnz
  | brc
  | brnc
  | bre
  | brne
  | jmp
  | endFw
  | nop
  deriving DecidableEq, Repr

/-- An instruction with its operand fields, named as R14 names them. -/
inductive Instr where
  /-- `ADD op1,op2,op3` (R111). -/
  | add (op1 : RegNo) (op2 : RegNo) (op3 : RegNo)
  /-- `SUB op1,op2,op3` (R112). -/
  | sub (op1 : RegNo) (op2 : RegNo) (op3 : RegNo)
  /-- `CMP op2,op3` (R113). -/
  | cmp (op2 : RegNo) (op3 : RegNo)
  /-- `AND op1,op2,op3` (R115). -/
  | and (op1 : RegNo) (op2 : RegNo) (op3 : RegNo)
  /-- `OR op1,op2,op3` (R116). -/
  | or (op1 : RegNo) (op2 : RegNo) (op3 : RegNo)
  /-- `XOR op1,op2,op3` (R117). -/
  | xor (op1 : RegNo) (op2 : RegNo) (op3 : RegNo)
  /-- `NOT op1,op2` (R118). -/
  | not (op1 : RegNo) (op2 : RegNo)
  /-- `SBIT op1,op2,op3` (R119). -/
  | sbit (op1 : RegNo) (op2 : RegNo) (op3 : RegNo)
  /-- `CBIT op1,op2,op3` (R120). -/
  | cbit (op1 : RegNo) (op2 : RegNo) (op3 : RegNo)
  /-- `LSL op1,op2` (R131). -/
  | lsl (op1 : RegNo) (op2 : RegNo)
  /-- `LSR op1,op2` (R132). -/
  | lsr (op1 : RegNo) (op2 : RegNo)
  /-- `ROL op1,op2` (R133). -/
  | rol (op1 : RegNo) (op2 : RegNo)
  /-- `ROR op1,op2` (R134). -/
  | ror (op1 : RegNo) (op2 : RegNo)
  /-- `ROL8 op1,op2` (R135). -/
  | rol8 (op1 : RegNo) (op2 : RegNo)
  /-- `ROR8 op1,op2` (R136). -/
  | ror8 (op1 : RegNo) (op2 : RegNo)
  /-- `ROLIN op1,op2,op3` (R137). -/
  | rolin (op1 : RegNo) (op2 : RegNo) (op3 : RegNo)
  /-- `RORIN op1,op2,op3` (R138). -/
  | rorin (op1 : RegNo) (op2 : RegNo) (op3 : RegNo)
  /-- `SWE op1,op2` (R139). -/
  | swe (op1 : RegNo) (op2 : RegNo)
  /-- `MUL25519 op1,op2,op3` (R151). -/
  | mul25519 (op1 : RegNo) (op2 : RegNo) (op3 : RegNo)
  /-- `MUL256 op1,op2,op3` (R152). -/
  | mul256 (op1 : RegNo) (op2 : RegNo) (op3 : RegNo)
  /-- `ADDP op1,op2,op3` (R153). -/
  | addp (op1 : RegNo) (op2 : RegNo) (op3 : RegNo)
  /-- `SUBP op1,op2,op3` (R154). -/
  | subp (op1 : RegNo) (op2 : RegNo) (op3 : RegNo)
  /-- `MULP op1,op2,op3` (R155). -/
  | mulp (op1 : RegNo) (op2 : RegNo) (op3 : RegNo)
  /-- `REDP op1,op2,op3` (R156). -/
  | redp (op1 : RegNo) (op2 : RegNo) (op3 : RegNo)
  /-- `LDR op1,op2` (R170). -/
  | ldr (op1 : RegNo) (op2 : RegNo)
  /-- `STR op1,op2` (R171). -/
  | str (op1 : RegNo) (op2 : RegNo)
  /-- `MOV op1,op2` (R172). -/
  | mov (op1 : RegNo) (op2 : RegNo)
  /-- `CSWAP op1,op2` (R173). -/
  | cswap (op1 : RegNo) (op2 : RegNo)
  /-- `ZSWAP op1,op2` (R174). -/
  | zswap (op1 : RegNo) (op2 : RegNo)
  /-- `HASH op1,op2` (R194). -/
  | hash (op1 : RegNo) (op2 : RegNo)
  /-- `TMAC_IT op2` (R198). -/
  | tmacIt (op2 : RegNo)
  /-- `TMAC_UP op2` (R199). -/
  | tmacUp (op2 : RegNo)
  /-- `TMAC_RD op1` (R200). -/
  | tmacRd (op1 : RegNo)
  /-- `GRV op1` (R205). -/
  | grv (op1 : RegNo)
  /-- `SCB op1,op2,op3` (R208). -/
  | scb (op1 : RegNo) (op2 : RegNo) (op3 : RegNo)
  /-- `ADDI op1,op2,Immediate` (R221). -/
  | addi (op1 : RegNo) (op2 : RegNo) (imm : Imm)
  /-- `SUBI op1,op2,Immediate` (R222). -/
  | subi (op1 : RegNo) (op2 : RegNo) (imm : Imm)
  /-- `CMPI op2,Immediate` (R223). -/
  | cmpi (op2 : RegNo) (imm : Imm)
  /-- `ANDI op1,op2,Immediate` (R225). -/
  | andi (op1 : RegNo) (op2 : RegNo) (imm : Imm)
  /-- `ORI op1,op2,Immediate` (R226). -/
  | ori (op1 : RegNo) (op2 : RegNo) (imm : Imm)
  /-- `XORI op1,op2,Immediate` (R227). -/
  | xori (op1 : RegNo) (op2 : RegNo) (imm : Imm)
  /-- `LDK op1,op2,Immediate` (R237). -/
  | ldk (op1 : RegNo) (op2 : RegNo) (imm : Imm)
  /-- `STK op1,op2,Immediate` (R238). -/
  | stk (op1 : RegNo) (op2 : RegNo) (imm : Imm)
  /-- `KBO op2,Immediate` (R239). -/
  | kbo (op2 : RegNo) (imm : Imm)
  /-- `MOVI op1,Immediate` (R240). -/
  | movi (op1 : RegNo) (imm : Imm)
  /-- `HASH_IT` (R241). -/
  | hashIt
  /-- `TMAC_IS op2,Immediate` (R242). -/
  | tmacIs (op2 : RegNo) (imm : Imm)
  /-- `LD op1,Addr` (R260). -/
  | ld (op1 : RegNo) (addr : Addr)
  /-- `ST op1,Addr` (R261). -/
  | st (op1 : RegNo) (addr : Addr)
  /-- `CALL NewPC` (R273). -/
  | call (newpc : Addr)
  /-- `RET` (R274). -/
  | ret
  /-- `BRZ NewPC` (R275). -/
  | brz (newpc : Addr)
  /-- `BRNZ NewPC` (R276). -/
  | brnz (newpc : Addr)
  /-- `BRC NewPC` (R277). -/
  | brc (newpc : Addr)
  /-- `BRNC NewPC` (R278). -/
  | brnc (newpc : Addr)
  /-- `BRE NewPC` (R279). -/
  | bre (newpc : Addr)
  /-- `BRNE NewPC` (R280). -/
  | brne (newpc : Addr)
  /-- `JMP NewPC` (R281). -/
  | jmp (newpc : Addr)
  /-- `END` (R282). -/
  | endFw
  /-- `NOP` (R283). -/
  | nop
  deriving DecidableEq, Repr

/-- The mnemonic of an instruction. -/
def Instr.op : Instr → Op
  | .add _ _ _ => .add
  | .sub _ _ _ => .sub
  | .cmp _ _ => .cmp
  | .and _ _ _ => .and
  | .or _ _ _ => .or
  | .xor _ _ _ => .xor
  | .not _ _ => .not
  | .sbit _ _ _ => .sbit
  | .cbit _ _ _ => .cbit
  | .lsl _ _ => .lsl
  | .lsr _ _ => .lsr
  | .rol _ _ => .rol
  | .ror _ _ => .ror
  | .rol8 _ _ => .rol8
  | .ror8 _ _ => .ror8
  | .rolin _ _ _ => .rolin
  | .rorin _ _ _ => .rorin
  | .swe _ _ => .swe
  | .mul25519 _ _ _ => .mul25519
  | .mul256 _ _ _ => .mul256
  | .addp _ _ _ => .addp
  | .subp _ _ _ => .subp
  | .mulp _ _ _ => .mulp
  | .redp _ _ _ => .redp
  | .ldr _ _ => .ldr
  | .str _ _ => .str
  | .mov _ _ => .mov
  | .cswap _ _ => .cswap
  | .zswap _ _ => .zswap
  | .hash _ _ => .hash
  | .tmacIt _ => .tmacIt
  | .tmacUp _ => .tmacUp
  | .tmacRd _ => .tmacRd
  | .grv _ => .grv
  | .scb _ _ _ => .scb
  | .addi _ _ _ => .addi
  | .subi _ _ _ => .subi
  | .cmpi _ _ => .cmpi
  | .andi _ _ _ => .andi
  | .ori _ _ _ => .ori
  | .xori _ _ _ => .xori
  | .ldk _ _ _ => .ldk
  | .stk _ _ _ => .stk
  | .kbo _ _ => .kbo
  | .movi _ _ => .movi
  | .hashIt => .hashIt
  | .tmacIs _ _ => .tmacIs
  | .ld _ _ => .ld
  | .st _ _ => .st
  | .call _ => .call
  | .ret => .ret
  | .brz _ => .brz
  | .brnz _ => .brnz
  | .brc _ => .brc
  | .brnc _ => .brnc
  | .bre _ => .bre
  | .brne _ => .brne
  | .jmp _ => .jmp
  | .endFw => .endFw
  | .nop => .nop

end Sys2Proof
end

