-- ==== Sys2Proof/Decode.lean ====
section
/-! DEFINITION. Decoding and encoding of the 32-bit instruction word (30_encoding.md): the opcode map
`ENC` of R90 as a table of rows, the decoder of R95, total on every word and rejecting by name, and the
encoder of R96. -/

namespace Sys2Proof

/-- One row of the opcode map of R90: its columns `type`, `func`, `opcode` and `mask`. -/
structure EncRow where
  type : BitVec 2
  func : BitVec 3
  opcode : BitVec 4
  mask : Word
  deriving DecidableEq, Repr

/-- The column `match` of R90: the word with every operand field and `p` zero (R82). -/
def EncRow.pattern (r : EncRow) : Word :=
  (0#1 ++ r.type ++ r.opcode ++ r.func ++ 0#22 : BitVec 32)

/-- `ENC`, the opcode map of R90. The numbers are the spec's own (D3), not the hardware's:
notes/assumptions/4.md. -/
def encRow : Op → EncRow
  | .add       => ⟨0b00, 0b001, 0b0001, 0x7FC0007F⟩
  | .sub       => ⟨0b00, 0b001, 0b0010, 0x7FC0007F⟩
  | .cmp       => ⟨0b00, 0b001, 0b0011, 0x7FFE007F⟩
  | .and       => ⟨0b00, 0b010, 0b0001, 0x7FC0007F⟩
  | .or        => ⟨0b00, 0b010, 0b0010, 0x7FC0007F⟩
  | .xor       => ⟨0b00, 0b010, 0b0011, 0x7FC0007F⟩
  | .not       => ⟨0b00, 0b010, 0b0100, 0x7FC00FFF⟩
  | .sbit      => ⟨0b00, 0b010, 0b0101, 0x7FC0007F⟩
  | .cbit      => ⟨0b00, 0b010, 0b0110, 0x7FC0007F⟩
  | .lsl       => ⟨0b00, 0b011, 0b0001, 0x7FC00FFF⟩
  | .lsr       => ⟨0b00, 0b011, 0b0010, 0x7FC00FFF⟩
  | .rol       => ⟨0b00, 0b011, 0b0011, 0x7FC00FFF⟩
  | .ror       => ⟨0b00, 0b011, 0b0100, 0x7FC00FFF⟩
  | .rol8      => ⟨0b00, 0b011, 0b0101, 0x7FC00FFF⟩
  | .ror8      => ⟨0b00, 0b011, 0b0110, 0x7FC00FFF⟩
  | .rolin     => ⟨0b00, 0b011, 0b0111, 0x7FC0007F⟩
  | .rorin     => ⟨0b00, 0b011, 0b1000, 0x7FC0007F⟩
  | .swe       => ⟨0b00, 0b011, 0b1001, 0x7FC00FFF⟩
  | .mul25519  => ⟨0b00, 0b100, 0b0001, 0x7FC0007F⟩
  | .mul256    => ⟨0b00, 0b100, 0b0010, 0x7FC0007F⟩
  | .addp      => ⟨0b00, 0b100, 0b0011, 0x7FC0007F⟩
  | .subp      => ⟨0b00, 0b100, 0b0100, 0x7FC0007F⟩
  | .mulp      => ⟨0b00, 0b100, 0b0101, 0x7FC0007F⟩
  | .redp      => ⟨0b00, 0b100, 0b0110, 0x7FC0007F⟩
  | .ldr       => ⟨0b00, 0b101, 0b0001, 0x7FC00FFF⟩
  | .str       => ⟨0b00, 0b101, 0b0010, 0x7FC00FFF⟩
  | .mov       => ⟨0b00, 0b110, 0b0001, 0x7FC00FFF⟩
  | .cswap     => ⟨0b00, 0b110, 0b0010, 0x7FC00FFF⟩
  | .zswap     => ⟨0b00, 0b110, 0b0011, 0x7FC00FFF⟩
  | .hash      => ⟨0b00, 0b110, 0b0100, 0x7FC00FFF⟩
  | .tmacIt    => ⟨0b00, 0b110, 0b0101, 0x7FFE0FFF⟩
  | .tmacUp    => ⟨0b00, 0b110, 0b0110, 0x7FFE0FFF⟩
  | .tmacRd    => ⟨0b00, 0b110, 0b0111, 0x7FC1FFFF⟩
  | .grv       => ⟨0b00, 0b110, 0b1000, 0x7FC1FFFF⟩
  | .scb       => ⟨0b00, 0b110, 0b1001, 0x7FC0007F⟩
  | .addi      => ⟨0b01, 0b001, 0b0001, 0x7FC00000⟩
  | .subi      => ⟨0b01, 0b001, 0b0010, 0x7FC00000⟩
  | .cmpi      => ⟨0b01, 0b001, 0b0011, 0x7FFE0000⟩
  | .andi      => ⟨0b01, 0b010, 0b0001, 0x7FC00000⟩
  | .ori       => ⟨0b01, 0b010, 0b0010, 0x7FC00000⟩
  | .xori      => ⟨0b01, 0b010, 0b0011, 0x7FC00000⟩
  | .ldk       => ⟨0b01, 0b111, 0b0001, 0x7FC00000⟩
  | .stk       => ⟨0b01, 0b111, 0b0010, 0x7FC00000⟩
  | .kbo       => ⟨0b01, 0b111, 0b0011, 0x7FFE0000⟩
  | .movi      => ⟨0b01, 0b110, 0b0001, 0x7FC1F000⟩
  | .hashIt    => ⟨0b01, 0b110, 0b0010, 0x7FFFFFFF⟩
  | .tmacIs    => ⟨0b01, 0b110, 0b0011, 0x7FFE0000⟩
  | .ld        => ⟨0b10, 0b101, 0b0001, 0x7FC10000⟩
  | .st        => ⟨0b10, 0b101, 0b0010, 0x7FC10000⟩
  | .call      => ⟨0b11, 0b000, 0b0001, 0x7FFF0000⟩
  | .ret       => ⟨0b11, 0b000, 0b0010, 0x7FFFFFFF⟩
  | .brz       => ⟨0b11, 0b000, 0b0011, 0x7FFF0000⟩
  | .brnz      => ⟨0b11, 0b000, 0b0100, 0x7FFF0000⟩
  | .brc       => ⟨0b11, 0b000, 0b0101, 0x7FFF0000⟩
  | .brnc      => ⟨0b11, 0b000, 0b0110, 0x7FFF0000⟩
  | .bre       => ⟨0b11, 0b000, 0b0111, 0x7FFF0000⟩
  | .brne      => ⟨0b11, 0b000, 0b1000, 0x7FFF0000⟩
  | .jmp       => ⟨0b11, 0b000, 0b1001, 0x7FFF0000⟩
  | .endFw     => ⟨0b11, 0b000, 0b1010, 0x7FFFFFFF⟩
  | .nop       => ⟨0b11, 0b000, 0b1011, 0x7FFFFFFF⟩

/-- Every mnemonic, in the order of R90's table. -/
def allOps : List Op :=
  [.add, .sub, .cmp, .and, .or, .xor, .not, .sbit, .cbit, .lsl, .lsr, .rol, .ror, .rol8, .ror8,
   .rolin, .rorin, .swe, .mul25519, .mul256, .addp, .subp, .mulp, .redp, .ldr, .str, .mov,
   .cswap, .zswap, .hash, .tmacIt, .tmacUp, .tmacRd, .grv, .scb, .addi, .subi, .cmpi, .andi,
   .ori, .xori, .ldk, .stk, .kbo, .movi, .hashIt, .tmacIs, .ld, .st, .call, .ret, .brz, .brnz,
   .brc, .brnc, .bre, .brne, .jmp, .endFw, .nop]

/-- The bits 30..22 that select the instruction (R82, R95). -/
def selectMask : Word := 0x7FC00000

/-- Field op1, bits 21..17 (R83). -/
def fieldOp1 (w : Word) : RegNo := w.extractLsb' 17 5

/-- Field op2, bits 16..12 (R83). -/
def fieldOp2 (w : Word) : RegNo := w.extractLsb' 12 5

/-- Field op3, bits 11..7 (R83). -/
def fieldOp3 (w : Word) : RegNo := w.extractLsb' 7 5

/-- Field Immediate, bits 11..0 (R84, R88). -/
def fieldImm (w : Word) : Imm := w.extractLsb' 0 12

/-- Field Addr, bits 15..0 (R85, R89). -/
def fieldAddr (w : Word) : Addr := w.extractLsb' 0 16

/-- Field NewPC, bits 15..0 (R86, R89). -/
def fieldNewpc (w : Word) : Addr := w.extractLsb' 0 16

/-- The instruction a row selects, with the operand fields the row names (R95). -/
def buildInstr (w : Word) : Op → Instr
  | .add       => .add (fieldOp1 w) (fieldOp2 w) (fieldOp3 w)
  | .sub       => .sub (fieldOp1 w) (fieldOp2 w) (fieldOp3 w)
  | .cmp       => .cmp (fieldOp2 w) (fieldOp3 w)
  | .and       => .and (fieldOp1 w) (fieldOp2 w) (fieldOp3 w)
  | .or        => .or (fieldOp1 w) (fieldOp2 w) (fieldOp3 w)
  | .xor       => .xor (fieldOp1 w) (fieldOp2 w) (fieldOp3 w)
  | .not       => .not (fieldOp1 w) (fieldOp2 w)
  | .sbit      => .sbit (fieldOp1 w) (fieldOp2 w) (fieldOp3 w)
  | .cbit      => .cbit (fieldOp1 w) (fieldOp2 w) (fieldOp3 w)
  | .lsl       => .lsl (fieldOp1 w) (fieldOp2 w)
  | .lsr       => .lsr (fieldOp1 w) (fieldOp2 w)
  | .rol       => .rol (fieldOp1 w) (fieldOp2 w)
  | .ror       => .ror (fieldOp1 w) (fieldOp2 w)
  | .rol8      => .rol8 (fieldOp1 w) (fieldOp2 w)
  | .ror8      => .ror8 (fieldOp1 w) (fieldOp2 w)
  | .rolin     => .rolin (fieldOp1 w) (fieldOp2 w) (fieldOp3 w)
  | .rorin     => .rorin (fieldOp1 w) (fieldOp2 w) (fieldOp3 w)
  | .swe       => .swe (fieldOp1 w) (fieldOp2 w)
  | .mul25519  => .mul25519 (fieldOp1 w) (fieldOp2 w) (fieldOp3 w)
  | .mul256    => .mul256 (fieldOp1 w) (fieldOp2 w) (fieldOp3 w)
  | .addp      => .addp (fieldOp1 w) (fieldOp2 w) (fieldOp3 w)
  | .subp      => .subp (fieldOp1 w) (fieldOp2 w) (fieldOp3 w)
  | .mulp      => .mulp (fieldOp1 w) (fieldOp2 w) (fieldOp3 w)
  | .redp      => .redp (fieldOp1 w) (fieldOp2 w) (fieldOp3 w)
  | .ldr       => .ldr (fieldOp1 w) (fieldOp2 w)
  | .str       => .str (fieldOp1 w) (fieldOp2 w)
  | .mov       => .mov (fieldOp1 w) (fieldOp2 w)
  | .cswap     => .cswap (fieldOp1 w) (fieldOp2 w)
  | .zswap     => .zswap (fieldOp1 w) (fieldOp2 w)
  | .hash      => .hash (fieldOp1 w) (fieldOp2 w)
  | .tmacIt    => .tmacIt (fieldOp2 w)
  | .tmacUp    => .tmacUp (fieldOp2 w)
  | .tmacRd    => .tmacRd (fieldOp1 w)
  | .grv       => .grv (fieldOp1 w)
  | .scb       => .scb (fieldOp1 w) (fieldOp2 w) (fieldOp3 w)
  | .addi      => .addi (fieldOp1 w) (fieldOp2 w) (fieldImm w)
  | .subi      => .subi (fieldOp1 w) (fieldOp2 w) (fieldImm w)
  | .cmpi      => .cmpi (fieldOp2 w) (fieldImm w)
  | .andi      => .andi (fieldOp1 w) (fieldOp2 w) (fieldImm w)
  | .ori       => .ori (fieldOp1 w) (fieldOp2 w) (fieldImm w)
  | .xori      => .xori (fieldOp1 w) (fieldOp2 w) (fieldImm w)
  | .ldk       => .ldk (fieldOp1 w) (fieldOp2 w) (fieldImm w)
  | .stk       => .stk (fieldOp1 w) (fieldOp2 w) (fieldImm w)
  | .kbo       => .kbo (fieldOp2 w) (fieldImm w)
  | .movi      => .movi (fieldOp1 w) (fieldImm w)
  | .hashIt    => .hashIt
  | .tmacIs    => .tmacIs (fieldOp2 w) (fieldImm w)
  | .ld        => .ld (fieldOp1 w) (fieldAddr w)
  | .st        => .st (fieldOp1 w) (fieldAddr w)
  | .call      => .call (fieldNewpc w)
  | .ret       => .ret
  | .brz       => .brz (fieldNewpc w)
  | .brnz      => .brnz (fieldNewpc w)
  | .brc       => .brc (fieldNewpc w)
  | .brnc      => .brnc (fieldNewpc w)
  | .bre       => .bre (fieldNewpc w)
  | .brne      => .brne (fieldNewpc w)
  | .jmp       => .jmp (fieldNewpc w)
  | .endFw     => .endFw
  | .nop       => .nop

/-- The exclusive OR of the low `n` bits of `w` (R87: "the exclusive OR of all 32 bits" with `n = 32`). -/
def xorBits (w : Word) : Nat → Bool
  | 0 => false
  | n + 1 => Bool.xor (w.getLsbD n) (xorBits w n)

/-- R87: whether bit 31 of `w` is as the parity mode wants it. -/
def parityOk : ParityMode → Word → Bool
  | .none, _ => true
  | .even, w => !xorBits w 32
  | .odd, w => xorBits w 32

/-- Why a word decodes to no instruction; each is `Fault(IllegalInstruction)` at the step (R87, R91, R92). -/
inductive DecodeError where
  /-- `p` is wrong under `PARITY_MODE` even or odd (R87). -/
  | badParity
  /-- Bits 30..22 match no row of R90 (R92). -/
  | noSuchInstruction
  /-- A bit that the selected row leaves unused is 1 (R91). -/
  | unusedBitSet
  deriving DecidableEq, Repr

/-- Decoding under an opcode map `enc`, total on every word, in the order of R95. -/
def decodeWith (enc : Op → EncRow) (mode : ParityMode) (w : Word) : Except DecodeError Instr :=
  if parityOk mode w then
    match allOps.find? (fun o => w &&& selectMask == (enc o).pattern &&& selectMask) with
    | none => .error .noSuchInstruction
    | some o =>
      if w &&& (enc o).mask == (enc o).pattern then .ok (buildInstr w o) else .error .unusedBitSet
  else .error .badParity

/-- Decoding under the opcode map of R90 (R95). -/
def decode (mode : ParityMode) (w : Word) : Except DecodeError Instr :=
  decodeWith encRow mode w

/-- op1 at bits 21..17 (R96). -/
def putOp1 (a : RegNo) : Word := a.setWidth 32 <<< 17

/-- op2 at bits 16..12 (R96). -/
def putOp2 (b : RegNo) : Word := b.setWidth 32 <<< 12

/-- op3 at bits 11..7 (R96). -/
def putOp3 (c : RegNo) : Word := c.setWidth 32 <<< 7

/-- Immediate at bits 11..0 (R96). -/
def putImm (i : Imm) : Word := i.setWidth 32

/-- Addr or NewPC at bits 15..0 (R96). -/
def putAddr (m : Addr) : Word := m.setWidth 32

/-- The operand fields of an instruction in their places, 0 in every field it lacks (R96). -/
def operandBits : Instr → Word
  | .add a b c => putOp1 a ||| putOp2 b ||| putOp3 c
  | .sub a b c => putOp1 a ||| putOp2 b ||| putOp3 c
  | .cmp b c => putOp2 b ||| putOp3 c
  | .and a b c => putOp1 a ||| putOp2 b ||| putOp3 c
  | .or a b c => putOp1 a ||| putOp2 b ||| putOp3 c
  | .xor a b c => putOp1 a ||| putOp2 b ||| putOp3 c
  | .not a b => putOp1 a ||| putOp2 b
  | .sbit a b c => putOp1 a ||| putOp2 b ||| putOp3 c
  | .cbit a b c => putOp1 a ||| putOp2 b ||| putOp3 c
  | .lsl a b => putOp1 a ||| putOp2 b
  | .lsr a b => putOp1 a ||| putOp2 b
  | .rol a b => putOp1 a ||| putOp2 b
  | .ror a b => putOp1 a ||| putOp2 b
  | .rol8 a b => putOp1 a ||| putOp2 b
  | .ror8 a b => putOp1 a ||| putOp2 b
  | .rolin a b c => putOp1 a ||| putOp2 b ||| putOp3 c
  | .rorin a b c => putOp1 a ||| putOp2 b ||| putOp3 c
  | .swe a b => putOp1 a ||| putOp2 b
  | .mul25519 a b c => putOp1 a ||| putOp2 b ||| putOp3 c
  | .mul256 a b c => putOp1 a ||| putOp2 b ||| putOp3 c
  | .addp a b c => putOp1 a ||| putOp2 b ||| putOp3 c
  | .subp a b c => putOp1 a ||| putOp2 b ||| putOp3 c
  | .mulp a b c => putOp1 a ||| putOp2 b ||| putOp3 c
  | .redp a b c => putOp1 a ||| putOp2 b ||| putOp3 c
  | .ldr a b => putOp1 a ||| putOp2 b
  | .str a b => putOp1 a ||| putOp2 b
  | .mov a b => putOp1 a ||| putOp2 b
  | .cswap a b => putOp1 a ||| putOp2 b
  | .zswap a b => putOp1 a ||| putOp2 b
  | .hash a b => putOp1 a ||| putOp2 b
  | .tmacIt b => putOp2 b
  | .tmacUp b => putOp2 b
  | .tmacRd a => putOp1 a
  | .grv a => putOp1 a
  | .scb a b c => putOp1 a ||| putOp2 b ||| putOp3 c
  | .addi a b i => putOp1 a ||| putOp2 b ||| putImm i
  | .subi a b i => putOp1 a ||| putOp2 b ||| putImm i
  | .cmpi b i => putOp2 b ||| putImm i
  | .andi a b i => putOp1 a ||| putOp2 b ||| putImm i
  | .ori a b i => putOp1 a ||| putOp2 b ||| putImm i
  | .xori a b i => putOp1 a ||| putOp2 b ||| putImm i
  | .ldk a b i => putOp1 a ||| putOp2 b ||| putImm i
  | .stk a b i => putOp1 a ||| putOp2 b ||| putImm i
  | .kbo b i => putOp2 b ||| putImm i
  | .movi a i => putOp1 a ||| putImm i
  | .hashIt => 0
  | .tmacIs b i => putOp2 b ||| putImm i
  | .ld a m => putOp1 a ||| putAddr m
  | .st a m => putOp1 a ||| putAddr m
  | .call n => putAddr n
  | .ret => 0
  | .brz n => putAddr n
  | .brnz n => putAddr n
  | .brc n => putAddr n
  | .brnc n => putAddr n
  | .bre n => putAddr n
  | .brne n => putAddr n
  | .jmp n => putAddr n
  | .endFw => 0
  | .nop => 0

/-- Bit 31 as the parity mode wants it (R87), over a word whose bit 31 is 0. -/
def setParity : ParityMode → Word → Word
  | .none, w => w
  | .even, w => if xorBits w 31 then w ||| 0x80000000 else w
  | .odd, w => if xorBits w 31 then w else w ||| 0x80000000

/-- Encoding under an opcode map `enc` (R96). -/
def encodeWith (enc : Op → EncRow) (mode : ParityMode) (i : Instr) : Word :=
  setParity mode ((enc i.op).pattern ||| operandBits i)

/-- Encoding under the opcode map of R90 (R96). -/
def encode (mode : ParityMode) (i : Instr) : Word :=
  encodeWith encRow mode i

/-- The instruction that the decoder reads from the low `nbits` bits of `w`, under `PARITY_MODE` none
(the mode the table's words are for, R87). -/
def decodeTableWord (nbits w : Nat) : Option Instr :=
  match decode .none (BitVec.ofNat 32 (w % 2 ^ nbits)) with
  | .ok i => some i
  | .error _ => none

end Sys2Proof
end

