-- ==== Sys2Proof/Machine/State.lean ====
section
/-! DEFINITION. The architectural state (10_state.md), the fault reasons (60_exceptions.md rule R301),
the refusals, and the state right after reset (R40, R330). -/

namespace Sys2Proof.Machine

/-- The data memory: the bytes that are not 0, as (address, byte) pairs with addresses strictly rising
(R50; `Memory.wf` in Ops.lean). An address that is not listed reads as 0: notes/assumptions/5.md. -/
abbrev Memory := List Host.Cell

/-- `IMEM`, the program: a partial map from byte addresses to instruction words, addresses strictly
rising (R52; `Program.wf` in Ops.lean). -/
abbrev Program := List (Nat × Word)

/-- The fault reasons of R301, complete, each with what the rule says it records. A fault is terminal
and precise (R300): the step answers `.fault` and gives no next state. All of them are SAFE: they stand
where the source does not say what the hardware does (R306, D25). `pc` is the address of the faulting
instruction. -/
inductive Fault where
  /-- Raised by the fetch of any instruction when `pc` holds no program word (R52, R25), and by CALL when
  the return address would pass 0xFFFC (R273). Safe. -/
  | fetchOutOfRange (pc : Nat)
  /-- Raised at decode (R87, R91, R92), and by LDK, STK, KBO and TMAC_IS for Immediate bits that no
  sub-field names (R237, R238, R239, R242). Safe. -/
  | illegalInstruction (pc : Nat) (word : Word)
  /-- Raised by HASH, TMAC_IT and SCB when a register group passes R31 (R190). Safe. -/
  | registerIndexOutOfRange (pc : Nat)
  /-- Raised by ADDP, SUBP, MULP and REDP when R31 is 0 (R157). Safe. -/
  | zeroModulus (pc : Nat)
  /-- Raised by LDR, STR, LD and ST when a word of the access lies above 0xFFFC (R55, R56). Safe. -/
  | addressOutOfRange (pc : Nat) (addr : Nat)
  /-- Raised by LDR, STR, LD and ST when the address is no multiple of 4 (R55, R56, R60). Safe. -/
  | misalignedAccess (pc : Nat) (addr : Nat)
  /-- Raised by LDR, STR, LD and ST when a word is not in `MEM_MAP` or holds program text (R52, R55, R56,
  R67). Safe. -/
  | accessNotAdmitted (pc : Nat) (addr : Nat)
  /-- Raised by CALL, RET, JMP and the taken branches when the target is no multiple of 4 (R271). Safe. -/
  | misalignedTarget (pc : Nat) (target : Addr)
  /-- Raised by CALL when RAR holds `RAR_DEPTH` entries (R33). Safe. -/
  | rarOverflow (pc : Nat)
  /-- Raised by RET when RAR is empty (R34). Safe. -/
  | rarUnderflow (pc : Nat)
  deriving DecidableEq, Repr

/-- Why the model gives no step without a `Fault` of R301. -/
inductive Refusal where
  /-- Raised by `exec` for an instruction that has no meaning yet; no arm of `exec` raises it. Safe. -/
  | notModelled (mnemonic : String)
  /-- Raised by `step` when `run` is `Done` or `Faulted`: "In `Done` and `Faulted` the core has no further
  step" (R38, R315). Safe: it is what the spec says. -/
  | notRunning
  deriving DecidableEq, Repr

/-- `run`, the spec's bookkeeping of whether the core steps (R38). -/
inductive RunStatus where
  | running
  | done
  | faulted (reason : Fault)
  deriving DecidableEq, Repr

/-- The state of the machine: what 10_state.md names, the platform's parameters (R8, fixed for a run),
and three fields of the model's own (`pcCarry`, `draws`, `cycles`). -/
structure State where
  /-- R0..R31, 256 bits each (R20). -/
  regs : Vector Val 32
  /-- The program counter, a 16-bit byte address (R24). -/
  pc : Addr
  /-- The model's own: the carry out of `pc` of the advance past 0xFFFC, which does not wrap (R25). -/
  pcCarry : Bool
  /-- The Zero flag Z (R28). -/
  flagZ : Bool
  /-- The Carry flag C (R29). -/
  flagC : Bool
  /-- The Error flag E (R30). -/
  flagE : Bool
  /-- RAR, the stack of return addresses, the last pushed first (R32). -/
  rar : List Addr
  /-- The 512-bit chaining state of the SHA core (R35). -/
  sha : BitVec 512
  /-- The state of the TMAC unit (R36). -/
  tmac : TmacState
  /-- STATUS[DONE] (R37). -/
  statusDone : Bool
  /-- The run status (R38). -/
  run : RunStatus
  /-- The data memory (R50). -/
  mem : Memory
  /-- `IMEM`, the program, immutable during a run (R52). -/
  imem : Program
  /-- `MEM_MAP.readable` (R54). -/
  readable : List AddrRange
  /-- `MEM_MAP.writable` (R54). -/
  writable : List AddrRange
  /-- `RAR_DEPTH`, a positive integer (R8, R32). -/
  rarDepth : RarDepth
  /-- `PARITY_MODE` (R87). -/
  parityMode : ParityMode
  /-- `HOST_BYTE_ORDER` (R59): little or big, and no mixed order, is a DESIGN CHOICE
  (notes/assumptions/18.md). -/
  byteOrder : ByteOrder
  /-- The key-bus requests made and their answers, oldest first (R236). -/
  kbusLog : List KbusEvent
  /-- The model's own: how many random values GRV has drawn (R205). -/
  draws : Nat
  /-- The ghost cycle counter that R341 allows: the sum of #C, `none` after a "-". -/
  cycles : Option Nat
  deriving DecidableEq, Repr

/-- The start state of R40 and R330. What the rule leaves unspecified (registers, flags, `sha`, `tmac`)
holds the value that notes/assumptions/1.md names, and the OPEN parameters those of
notes/assumptions/3.md; no program is loaded (notes/assumptions/6.md). -/
def State.reset : State where
  regs := Vector.replicate 32 0
  pc := Config.startPc
  pcCarry := false
  flagZ := false
  flagC := false
  flagE := false
  rar := []
  sha := 0
  tmac := 0
  statusDone := false
  run := .running
  mem := []
  imem := []
  readable := Config.memMap
  writable := Config.memMap
  rarDepth := Config.rarDepth
  parityMode := Config.parityMode
  byteOrder := Config.byteOrder
  kbusLog := []
  draws := 0
  cycles := some 0

end Sys2Proof.Machine
end

