-- ==== Sys2Proof/Machine/Flags.lean ====
section
/-! DEFINITION. The three flags (R27 to R31): what each is computed from, and its write. An instruction
writes exactly the flags of its F column (R31). -/

namespace Sys2Proof.Machine

/-- Z of a value: whether all its bits are 0 (R28: "all 256 bits of op1 are 0", and the 32-bit
difference of CMP and CMPI). -/
def isZero {n : Nat} (v : BitVec n) : Bool := v == 0#n

/-- C of LSL and ROL: bit 255 of op2 (R29). -/
def carryLeft (v : Val) : Bool := v.getLsbD 255

/-- C of LSR and ROR: bit 0 of op2 (R29). -/
def carryRight (v : Val) : Bool := v.getLsbD 0

/-- E of a key-bus request whose error bit is `err`, when E was `old`: `E <- err` (R30, D15). -/
def errorFlag (_old err : Bool) : Bool := err

/-- `Z <- b` (R12). -/
def State.setZ (s : State) (b : Bool) : State := { s with flagZ := b }

/-- `C <- b` (R12). -/
def State.setC (s : State) (b : Bool) : State := { s with flagC := b }

/-- `E <- b` (R12). -/
def State.setE (s : State) (b : Bool) : State := { s with flagE := b }

end Sys2Proof.Machine
end

