-- ==== Sys2Proof/Machine/Operands.lean ====
section
/-! DEFINITION. Operand access: the general registers (R20, R21), the register groups (R190), and the
slices of registers and of the Immediate that the instruction rules name (R88, D38). -/

namespace Sys2Proof.Machine

/-- `x[r]`, the read of a general register (R12, R20). No register is hardwired (R21). -/
def State.reg (s : State) (r : RegNo) : Val :=
  s.regs[r.toNat]'r.isLt

/-- `x[r] <- v`, the write of a general register (R12, R21). -/
def State.setReg (s : State) (r : RegNo) (v : Val) : State :=
  { s with regs := s.regs.set r.toNat v r.isLt }

/-- R31, the implicit modulus of ADDP, SUBP, MULP and REDP and third argument of Blind (R21). -/
def modulusReg : RegNo := 31

/-- The highest first register of a group of four, R28 (R190). -/
def lastGroupOfFour : Nat := 28

/-- The highest first register of a pair, R30 (R190). -/
def lastPair : Nat := 30

/-- `x[r+3] || x[r+2] || x[r+1] || x[r]`: the 1024-bit value of a group of four registers, the one with
the highest number the most significant (R190). -/
def State.regGroup (s : State) (r : RegNo) : BitVec 1024 :=
  s.reg (r + 3) ++ s.reg (r + 2) ++ s.reg (r + 1) ++ s.reg r

/-- The low half of `v` to `R<r>` and the high half to `R<r+1>` (R194, R208). -/
def State.setRegPair (s : State) (r : RegNo) (v : BitVec 512) : State :=
  (s.setReg r (v.extractLsb' 0 256)).setReg (r + 1) (v.extractLsb' 256 256)

/-- Bits 31..0 of a register value, all that 32-bit arithmetic reads of it (R110). -/
def low32 (v : Val) : Word := v.extractLsb' 0 32

/-- The result of 32-bit arithmetic with bits 255..32 cleared (R110). -/
def zext256 (w : Word) : Val := w.setWidth 256

/-- `zext_32(imm)`, the zero-extended Immediate of ADDI, SUBI and CMPI (R88). -/
def immWord (imm : Imm) : Word := imm.setWidth 32

/-- `zext_256(imm)`, the value MOVI writes (R240). -/
def immVal (imm : Imm) : Val := imm.setWidth 256

/-- Bits 11..0 of a register value, all that the immediate logic instructions change of it (R224). -/
def low12 (v : Val) : BitVec 12 := v.extractLsb' 0 12

/-- `v` with bits 11..0 replaced: bits 255..12 pass through unchanged (R224). -/
def withLow12 (v : Val) (l : BitVec 12) : Val :=
  (v.extractLsb' 12 244 ++ l : BitVec 256)

/-- `op3[7:0]`, the bit number of SBIT and CBIT, 0..255 (R119, R120, D38). -/
def bitNumber (v : Val) : Nat := (v.extractLsb' 0 8).toNat

/-- `1 << n` as a 256-bit value (R119). -/
def oneBit (n : Nat) : Val := 1#256 <<< n

/-- `op2[7:0]`, the key slot (R237, D38). -/
def keySlot (v : Val) : BitVec 8 := v.extractLsb' 0 8

/-- `Immediate[11:8]`, the key type (R237). -/
def keyType (imm : Imm) : BitVec 4 := imm.extractLsb' 8 4

/-- `Immediate[4:0] * 8`, a number 0, 8, ..., 248 (R236, R237). -/
def keyOffset (imm : Imm) : BitVec 8 := (imm.extractLsb' 0 5 ++ 0#3 : BitVec 8)

/-- `Immediate[3:0]`, the operation of KBO (R239). -/
def keyOperation (imm : Imm) : BitVec 4 := imm.extractLsb' 0 4

/-- `Imd[7:0]`, N of TMAC_IS (R242). -/
def initstringN (imm : Imm) : BitVec 8 := imm.extractLsb' 0 8

/-- `op2[143:0]`, what TMAC_UP absorbs (R199, D38). -/
def tmacBlock (v : Val) : BitVec 144 := v.extractLsb' 0 144

/-- The Immediate bits that LDK and STK do not name, 7..5, are 0 (R91, R237, R238). -/
def keyImmOk (imm : Imm) : Bool := imm.extractLsb' 5 3 == 0

/-- The Immediate bits that KBO does not name, 7..4, are 0 (R91, R239). -/
def kboImmOk (imm : Imm) : Bool := imm.extractLsb' 4 4 == 0

/-- The Immediate bits that TMAC_IS does not name, 11..8, are 0 (R91, R242). -/
def initstringImmOk (imm : Imm) : Bool := imm.extractLsb' 8 4 == 0

/-- Share A of a TMAC mask, `mask[399:0]` (R196). The machine passes the whole mask on (R197). -/
def maskShareA (mask : BitVec 1024) : BitVec 400 := mask.extractLsb' 0 400

/-- Share B of a TMAC mask, read as `mask[799:400]` (90_conflicts.md C6). -/
def maskShareB (mask : BitVec 1024) : BitVec 400 := mask.extractLsb' 400 400

/-- The Guard of a TMAC mask, `mask[803:800]` (R196). -/
def maskGuard (mask : BitVec 1024) : BitVec 4 := mask.extractLsb' 800 4

end Sys2Proof.Machine
end

