-- ==== Sys2Proof/Machine/Ops.lean ====
section
/-! DEFINITION. The named operations the meanings are written with: the outcome of a step, the program
counter, the data memory, the program memory and the fetch, the return-address stack, the units, the key
bus and the random source, and the run status. There is no trap entry and no return from one (R305):
every abnormal condition is the terminal `raise` below. -/

namespace Sys2Proof.Machine

/-- What a meaning answers. -/
abbrev Result := Host.Outcome State Fault Refusal

/-- `raise Fault(reason)` (R300): the step ends here and nothing is written. -/
def raise (f : Fault) : Result := .fault f

/-! ### The program counter -/

/-- The address of the instruction being executed, as a number: 0x10000 or above only after the advance
past 0xFFFC (R24, R25). -/
def State.pcValue (s : State) : Nat := s.pc.toNat + (if s.pcCarry then 0x10000 else 0)

/-- `next`, that is `pc <- pc + 4` without wrap-around (R12, R25). -/
def State.advance (s : State) : State :=
  { s with pc := s.pc + 4, pcCarry := decide (0x10000 ≤ s.pc.toNat + 4) }

/-- `pc <- t` (R12). -/
def State.setPc (s : State) (t : Addr) : State := { s with pc := t, pcCarry := false }

/-- The target check of R271: a multiple of 4. -/
def targetOk (t : Addr) : Bool := t.toNat % 4 == 0

/-- A transfer of control to `t`, with the target check of R271. -/
def State.jump (s : State) (t : Addr) : Result :=
  if targetOk t then .next (s.setPc t) else raise (.misalignedTarget s.pcValue t)

/-- The conditional branch template of R272: `taken` is whether the flag has the wanted value. -/
def State.branch (s : State) (taken : Bool) (newpc : Addr) : Result :=
  if taken then s.jump newpc else .next s.advance

/-! ### The data memory, byte by byte -/

/-- What a byte that the list does not hold reads as. DESIGN CHOICE: notes/assumptions/5.md. -/
def unlistedByte : Byte := 0

/-- The byte at an address. -/
def Memory.get : Memory → Nat → Byte
  | [], _ => unlistedByte
  | (k, v) :: m, a => if k = a then v else Memory.get m a

/-- The list without its entries at address `a`. -/
def Memory.erase (m : Memory) (a : Nat) : Memory := m.filter fun p => p.1 != a

/-- The list with an entry put before the first entry at a higher address. -/
def Memory.insert : Memory → Nat → Byte → Memory
  | [], a, b => [(a, b)]
  | (k, v) :: m, a, b => if a < k then (a, b) :: (k, v) :: m else (k, v) :: Memory.insert m a b

/-- The write of one byte. It keeps the canonical form: a byte that an unlisted address reads as is not
listed. -/
def Memory.set (m : Memory) (a : Nat) (b : Byte) : Memory :=
  if b = unlistedByte then m.erase a else (m.erase a).insert a b

/-- Whether every address of the list lies above `a`. -/
def Memory.above (a : Nat) (m : Memory) : Bool := m.all fun p => a < p.1

/-- The canonical form: addresses strictly rising, and no entry that an unlisted address reads as. -/
def Memory.wf : Memory → Bool
  | [] => true
  | (k, v) :: m => Memory.above k m && v != unlistedByte && Memory.wf m

/-! ### 32-bit words and 256-bit blocks of the data memory -/

/-- The byte of a word that stands `i` addresses above the word's own, `i < 4` (R59). -/
def wordByte (order : ByteOrder) (w : Word) (i : Nat) : Byte :=
  match order with
  | .little => w.extractLsb' (8 * i) 8
  | .big => w.extractLsb' (8 * (3 - i)) 8

/-- The word at a 4-aligned address, `mem[a]` of R55. -/
def Memory.getWord (order : ByteOrder) (m : Memory) (a : Nat) : Word :=
  match order with
  | .little => (m.get (a + 3) ++ m.get (a + 2) ++ m.get (a + 1) ++ m.get a : BitVec 32)
  | .big => (m.get a ++ m.get (a + 1) ++ m.get (a + 2) ++ m.get (a + 3) : BitVec 32)

/-- `mem[a] <- w` of R56. -/
def Memory.setWord (order : ByteOrder) (m : Memory) (a : Nat) (w : Word) : Memory :=
  (((m.set a (wordByte order w 0)).set (a + 1) (wordByte order w 1)).set
    (a + 2) (wordByte order w 2)).set (a + 3) (wordByte order w 3)

/-- Word `k` of a 256-bit value, bits `32k+31 .. 32k` (R57). -/
def blockWord (v : Val) (k : Nat) : Word := v.extractLsb' (32 * k) 32

/-- The 256-bit value of the eight words at `a`, `a+4`, ..., `a+0x1C`, least significant first (R57). -/
def Memory.getBlock (order : ByteOrder) (m : Memory) (a : Nat) : Val :=
  (m.getWord order (a + 0x1C) ++ m.getWord order (a + 0x18) ++ m.getWord order (a + 0x14) ++
    m.getWord order (a + 0x10) ++ m.getWord order (a + 0x0C) ++ m.getWord order (a + 0x08) ++
    m.getWord order (a + 0x04) ++ m.getWord order a : BitVec 256)

/-- The first `n` words of a 256-bit value stored at `a`, `a+4`, ..., in ascending order (R58). -/
def Memory.setWords (order : ByteOrder) (m : Memory) (a : Nat) (v : Val) : Nat → Memory
  | 0 => m
  | n + 1 => (Memory.setWords order m a v n).setWord order (a + 4 * n) (blockWord v n)

/-- All eight words of a 256-bit value stored at `a` (R58). -/
def Memory.setBlock (order : ByteOrder) (m : Memory) (a : Nat) (v : Val) : Memory :=
  m.setWords order a v 8

/-! ### The program memory -/

/-- The word of `IMEM` at an address of its list, if there is one. -/
def Program.find : Program → Nat → Option Word
  | [], _ => none
  | (k, w) :: p, a => if k = a then some w else Program.find p a

/-- `IMEM(a)`: defined only at multiples of 4 in 0x0000..0xFFFC (R52). -/
def Program.word (p : Program) (a : Nat) : Option Word :=
  if a ≤ 0xFFFC ∧ a % 4 = 0 then p.find a else none

/-- The program with the word `w` at `a` (the host's act before the start, R314). -/
def Program.put : Program → Nat → Word → Program
  | [], a, w => [(a, w)]
  | (k, x) :: p, a, w =>
    if a < k then (a, w) :: (k, x) :: p
    else if a = k then (a, w) :: p
    else (k, x) :: Program.put p a w

/-- The form of `IMEM` (R52): addresses strictly rising, multiples of 4, at most 0xFFFC. -/
def Program.wf : Program → Bool
  | [] => true
  | (k, _) :: p => p.all (fun q => k < q.1) && k % 4 == 0 && decide (k ≤ 0xFFFC) && Program.wf p

/-- `fetch(pc)` (R52). -/
def State.fetch (s : State) : Option Word := s.imem.word s.pcValue

/-- The word the machine is executing, for a fault raised after decode (R301 row 2). -/
def State.fetchedWord (s : State) : Word := s.fetch.getD 0

/-! ### The access primitives -/

/-- Whether an address lies in one of the ranges of a set of `MEM_MAP` (R54). -/
def inRanges (rs : List AddrRange) (a : Nat) : Bool :=
  rs.any fun r => decide (r.first ≤ a) && decide (a ≤ r.last)

/-- Whether a load may read the word at `a`: in `MEM_MAP.readable` and no program text (R52, R55). -/
def State.readAdmitted (s : State) (a : Nat) : Bool :=
  inRanges s.readable a && (s.imem.word a).isNone

/-- Whether a store may write the word at `a`: in `MEM_MAP.writable` and no program text (R52, R56, R67). -/
def State.writeAdmitted (s : State) (a : Nat) : Bool :=
  inRanges s.writable a && (s.imem.word a).isNone

/-- The three checks on one word address, in the order of R55 and R56. -/
def wordFault (admitted : Nat → Bool) (pc a : Nat) : Option Fault :=
  if 0xFFFC < a then some (.addressOutOfRange pc a)
  else if a % 4 ≠ 0 then some (.misalignedAccess pc a)
  else if admitted a then none
  else some (.accessNotAdmitted pc a)

/-- The checks on the eight words of a 256-bit access, in ascending address order (R303). -/
def blockFault (admitted : Nat → Bool) (pc a : Nat) : Option Fault :=
  [0x00, 0x04, 0x08, 0x0C, 0x10, 0x14, 0x18, 0x1C].findSome? fun d => wordFault admitted pc (a + d)

/-- `MemRead(a, 32)` (R57). -/
def State.memRead (s : State) (a : Nat) : Except Fault Val :=
  match blockFault s.readAdmitted s.pcValue a with
  | some f => .error f
  | none => .ok (s.mem.getBlock s.byteOrder a)

/-- The data memory replaced. -/
def State.setMem (s : State) (m : Memory) : State := { s with mem := m }

/-- `MemWrite(a, 32, v)`: all eight addresses are checked before any word is written (R58). -/
def State.memWrite (s : State) (a : Nat) (v : Val) : Except Fault State :=
  match blockFault s.writeAdmitted s.pcValue a with
  | some f => .error f
  | none => .ok (s.setMem (s.mem.setBlock s.byteOrder a v))

/-- The load shared by LDR and LD: `x[op1] <- MemRead(ea, 32); next` (R170, R260). -/
def State.loadReg (s : State) (op1 : RegNo) (ea : Nat) : Result :=
  match s.memRead ea with
  | .error f => raise f
  | .ok v => .next (s.setReg op1 v).advance

/-- The store shared by STR and ST: `MemWrite(ea, 32, x[op1]); next` (R171, R261). -/
def State.storeReg (s : State) (op1 : RegNo) (ea : Nat) : Result :=
  match s.memWrite ea (s.reg op1) with
  | .error f => raise f
  | .ok t => .next t.advance

/-! ### The return-address stack -/

/-- RAR replaced. -/
def State.setRar (s : State) (r : List Addr) : State := { s with rar := r }

/-- `rar_push(v)` (R33). -/
def State.rarPush (s : State) (v : Addr) : Except Fault State :=
  if s.rar.length = s.rarDepth.val then .error (.rarOverflow s.pcValue)
  else .ok (s.setRar (v :: s.rar))

/-- `rar_pop()`: the first element, and the state without it (R34). -/
def State.rarPop (s : State) : Except Fault (Addr × State) :=
  match s.rar with
  | [] => .error (.rarUnderflow s.pcValue)
  | t :: rest => .ok (t, s.setRar rest)

/-! ### The units, the key bus and the random source -/

/-- `sha <- v` (R35). -/
def State.setSha (s : State) (v : BitVec 512) : State := { s with sha := v }

/-- `tmac <- t` (R36). -/
def State.setTmac (s : State) (t : TmacState) : State := { s with tmac := t }

/-- A key-bus request and its answer recorded in the event history (R236). -/
def State.logKbus (s : State) (ev : KbusEvent) : State := { s with kbusLog := s.kbusLog ++ [ev] }

/-- The random value that the next draw gives: a free value (R205, notes/assumptions/7.md). -/
def State.drawValue (s : State) : Val := Config.randomDraw s.draws

/-- One draw taken: the next one is another (R205). -/
def State.countDraw (s : State) : State := { s with draws := s.draws + 1 }

/-- The end of a key-bus request: its event recorded, E written (R30), the pc advanced. -/
def State.endRequest (s : State) (ev : KbusEvent) (err : Bool) : State :=
  ((s.logKbus ev).setE (errorFlag s.flagE err)).advance

/-! ### The end of a run -/

/-- `status_done <- 1; run <- Done`; the pc stays (R282). -/
def State.finish (s : State) : State := { s with statusDone := true, run := .done }

/-- The state that R300 gives after `Fault(reason)`: `run` changes and nothing else. -/
def State.afterFault (s : State) (reason : Fault) : State := { s with run := .faulted reason }

/-! ### Results that several instructions share -/

/-- A result that writes R<op1> and no flag, then advances. -/
def State.writeResult (s : State) (op1 : RegNo) (v : Val) : State := (s.setReg op1 v).advance

/-- A result that writes R<op1> and Z from all its 256 bits, then advances (R28). -/
def State.writeResultZ (s : State) (op1 : RegNo) (v : Val) : State :=
  ((s.setReg op1 v).setZ (isZero v)).advance

/-- A result that writes R<op1> and C, then advances (R29). -/
def State.writeResultC (s : State) (op1 : RegNo) (v : Val) (carry : Bool) : State :=
  ((s.setReg op1 v).setC carry).advance

/-- The result of a comparison: Z from the 32-bit difference, no register (R28). -/
def State.compareResult (s : State) (d : Word) : State := (s.setZ (isZero d)).advance

/-- The modular instructions with modulus R31: the least non-negative residue of the exact integer `u`
(R150), or `Fault(ZeroModulus)` (R157). -/
def State.modularResult (s : State) (op1 : RegNo) (u : Int) : Result :=
  if s.reg modulusReg = 0 then raise (.zeroModulus s.pcValue)
  else .next (s.writeResult op1 (BitVec.ofInt 256 (u % ((s.reg modulusReg).toNat : Int))))

/-- The exchange of two registers if `cond`, both read before either is written (R173). -/
def State.swapIf (s : State) (cond : Bool) (op1 op2 : RegNo) : State :=
  if cond then ((s.setReg op1 (s.reg op2)).setReg op2 (s.reg op1)).advance else s.advance

/-! ### The ghost cycle counter -/

/-- The #C value of R340 added to the ghost counter; a "-" makes it undefined (R341). -/
def State.tick (s : State) (cost : Option Nat) : State :=
  { s with cycles := match s.cycles, cost with
      | some n, some k => some (n + k)
      | _, _ => none }

end Sys2Proof.Machine
end

