-- ==== Sys2Proof/Machine/Arith.lean ====
section
/-! DEFINITION. The 32-bit arithmetic instructions: ADD, SUB, CMP (40_r_arith_logic.md rules R110 to
R113) and ADDI, SUBI, CMPI (45_i_instructions.md rules R221 to R223). `BitVec 32` arithmetic is the
arithmetic modulo 2^32 of R110. -/

namespace Sys2Proof.Machine

/-- ADD (R111). -/
def execAdd (op1 op2 op3 : RegNo) (s : State) : Result :=
  .next (s.writeResultZ op1 (zext256 (low32 (s.reg op2) + low32 (s.reg op3))))

/-- SUB (R112). -/
def execSub (op1 op2 op3 : RegNo) (s : State) : Result :=
  .next (s.writeResultZ op1 (zext256 (low32 (s.reg op2) - low32 (s.reg op3))))

/-- CMP (R113). -/
def execCmp (op2 op3 : RegNo) (s : State) : Result :=
  .next (s.compareResult (low32 (s.reg op2) - low32 (s.reg op3)))

/-- ADDI (R221). -/
def execAddi (op1 op2 : RegNo) (imm : Imm) (s : State) : Result :=
  .next (s.writeResultZ op1 (zext256 (low32 (s.reg op2) + immWord imm)))

/-- SUBI (R222). -/
def execSubi (op1 op2 : RegNo) (imm : Imm) (s : State) : Result :=
  .next (s.writeResultZ op1 (zext256 (low32 (s.reg op2) - immWord imm)))

/-- CMPI (R223). -/
def execCmpi (op2 : RegNo) (imm : Imm) (s : State) : Result :=
  .next (s.compareResult (low32 (s.reg op2) - immWord imm))

end Sys2Proof.Machine
end

