-- ==== Sys2Proof/Machine/Control.lean ====
section
/-! DEFINITION. The J instructions: CALL, RET, BRZ, BRNZ, BRC, BRNC, BRE, BRNE, JMP, END, NOP
(47_j_instructions.md rules R270 to R283). None writes a flag or a general register (R270). -/

namespace Sys2Proof.Machine

/-- CALL (R273), its checks in the order of R303. -/
def execCall (newpc : Addr) (s : State) : Result :=
  if 0xFFFC < s.pcValue + 4 then raise (.fetchOutOfRange s.pcValue)
  else if targetOk newpc then
    match s.rarPush (s.pc + 4) with
    | .error f => raise f
    | .ok t => .next (t.setPc newpc)
  else raise (.misalignedTarget s.pcValue newpc)

/-- RET (R274), with the target check of R271. -/
def execRet (s : State) : Result :=
  match s.rarPop with
  | .error f => raise f
  | .ok (t, s') => s'.jump t

/-- BRZ (R275). -/
def execBrz (newpc : Addr) (s : State) : Result := s.branch s.flagZ newpc

/-- BRNZ (R276). -/
def execBrnz (newpc : Addr) (s : State) : Result := s.branch (!s.flagZ) newpc

/-- BRC (R277). -/
def execBrc (newpc : Addr) (s : State) : Result := s.branch s.flagC newpc

/-- BRNC (R278). -/
def execBrnc (newpc : Addr) (s : State) : Result := s.branch (!s.flagC) newpc

/-- BRE (R279). -/
def execBre (newpc : Addr) (s : State) : Result := s.branch s.flagE newpc

/-- BRNE (R280). -/
def execBrne (newpc : Addr) (s : State) : Result := s.branch (!s.flagE) newpc

/-- JMP (R281). -/
def execJmp (newpc : Addr) (s : State) : Result := s.jump newpc

/-- END (R282): the pc stays at the END. -/
def execEnd (s : State) : Result := .next s.finish

/-- NOP (R283). -/
def execNop (s : State) : Result := .next s.advance

end Sys2Proof.Machine
end

