-- ==== Sys2Proof/Machine/Kbus.lean ====
section
/-! DEFINITION. The key-bus instructions LDK, STK, KBO (45_i_instructions.md rules R236 to R239). A bus
error is reported in E and is no fault (R302). -/

namespace Sys2Proof.Machine

/-- LDK (R237). -/
def execLdk (op1 op2 : RegNo) (imm : Imm) (s : State) : Result :=
  if keyImmOk imm then
    let ans := Config.kbusRead s.kbusLog (keyType imm) (keySlot (s.reg op2)) (keyOffset imm)
    .next ((s.setReg op1 ans.2).endRequest
      (.read (keyType imm) (keySlot (s.reg op2)) (keyOffset imm) ans.1 ans.2) ans.1)
  else raise (.illegalInstruction s.pcValue s.fetchedWord)

/-- STK (R238). -/
def execStk (op1 op2 : RegNo) (imm : Imm) (s : State) : Result :=
  if keyImmOk imm then
    let err := Config.kbusWrite s.kbusLog (s.reg op1) (keyType imm) (keySlot (s.reg op2))
      (keyOffset imm)
    .next (s.endRequest
      (.write (s.reg op1) (keyType imm) (keySlot (s.reg op2)) (keyOffset imm) err) err)
  else raise (.illegalInstruction s.pcValue s.fetchedWord)

/-- KBO (R239). -/
def execKbo (op2 : RegNo) (imm : Imm) (s : State) : Result :=
  if kboImmOk imm then
    let err := Config.kbusOp s.kbusLog (keyType imm) (keySlot (s.reg op2)) (keyOperation imm)
    .next (s.endRequest (.op (keyType imm) (keySlot (s.reg op2)) (keyOperation imm) err) err)
  else raise (.illegalInstruction s.pcValue s.fetchedWord)

end Sys2Proof.Machine
end

