-- ==== Sys2Proof/Machine/LoadStore.lean ====
section
/-! DEFINITION. Loads, stores, moves and conditional swaps: LDR, STR, MOV, CSWAP, ZSWAP
(43_r_load_other.md rules R170 to R174), LD, ST (46_m_instructions.md rules R260, R261) and MOVI
(45_i_instructions.md rule R240). None writes a flag. -/

namespace Sys2Proof.Machine

/-- LDR (R170): the address is the whole register value (R61). -/
def execLdr (op1 op2 : RegNo) (s : State) : Result :=
  s.loadReg op1 (s.reg op2).toNat

/-- STR (R171): the address is the whole register value (R61). -/
def execStr (op1 op2 : RegNo) (s : State) : Result :=
  s.storeReg op1 (s.reg op2).toNat

/-- LD (R260). -/
def execLd (op1 : RegNo) (addr : Addr) (s : State) : Result :=
  s.loadReg op1 addr.toNat

/-- ST (R261). -/
def execSt (op1 : RegNo) (addr : Addr) (s : State) : Result :=
  s.storeReg op1 addr.toNat

/-- MOV (R172). -/
def execMov (op1 op2 : RegNo) (s : State) : Result :=
  .next (s.writeResult op1 (s.reg op2))

/-- MOVI (R240). -/
def execMovi (op1 : RegNo) (imm : Imm) (s : State) : Result :=
  .next (s.writeResult op1 (immVal imm))

/-- CSWAP (R173). -/
def execCswap (op1 op2 : RegNo) (s : State) : Result :=
  .next (s.swapIf s.flagC op1 op2)

/-- ZSWAP (R174). -/
def execZswap (op1 op2 : RegNo) (s : State) : Result :=
  .next (s.swapIf s.flagZ op1 op2)

end Sys2Proof.Machine
end

