-- ==== Sys2Proof/Machine/Logic.lean ====
section
/-! DEFINITION. The logic instructions: AND, OR, XOR, NOT, SBIT, CBIT on all 256 bits
(40_r_arith_logic.md rules R115 to R120) and ANDI, ORI, XORI on the low 12 (45_i_instructions.md rules
R224 to R227). -/

namespace Sys2Proof.Machine

/-- AND (R115). -/
def execAnd (op1 op2 op3 : RegNo) (s : State) : Result :=
  .next (s.writeResultZ op1 (s.reg op2 &&& s.reg op3))

/-- OR (R116). -/
def execOr (op1 op2 op3 : RegNo) (s : State) : Result :=
  .next (s.writeResultZ op1 (s.reg op2 ||| s.reg op3))

/-- XOR (R117). -/
def execXor (op1 op2 op3 : RegNo) (s : State) : Result :=
  .next (s.writeResultZ op1 (s.reg op2 ^^^ s.reg op3))

/-- NOT (R118). -/
def execNot (op1 op2 : RegNo) (s : State) : Result :=
  .next (s.writeResultZ op1 (~~~ s.reg op2))

/-- SBIT (R119): it writes no flag. -/
def execSbit (op1 op2 op3 : RegNo) (s : State) : Result :=
  .next (s.writeResult op1 (s.reg op2 ||| oneBit (bitNumber (s.reg op3))))

/-- CBIT (R120): it writes no flag. -/
def execCbit (op1 op2 op3 : RegNo) (s : State) : Result :=
  .next (s.writeResult op1 (s.reg op2 &&& ~~~ oneBit (bitNumber (s.reg op3))))

/-- ANDI (R225). -/
def execAndi (op1 op2 : RegNo) (imm : Imm) (s : State) : Result :=
  .next (s.writeResultZ op1 (withLow12 (s.reg op2) (low12 (s.reg op2) &&& imm)))

/-- ORI (R226). -/
def execOri (op1 op2 : RegNo) (imm : Imm) (s : State) : Result :=
  .next (s.writeResultZ op1 (withLow12 (s.reg op2) (low12 (s.reg op2) ||| imm)))

/-- XORI (R227). -/
def execXori (op1 op2 : RegNo) (imm : Imm) (s : State) : Result :=
  .next (s.writeResultZ op1 (withLow12 (s.reg op2) (low12 (s.reg op2) ^^^ imm)))

end Sys2Proof.Machine
end

