-- ==== Sys2Proof/Machine/Modular.lean ====
section
/-! DEFINITION. Modular arithmetic: MUL25519, MUL256, ADDP, SUBP, MULP, REDP (42_r_modular.md rules R150
to R158). The intermediate value is exact, never truncated before the reduction (R150); no flag is
written. -/

namespace Sys2Proof.Machine

/-- `P25519 = 2^255 - 19` (R7, R151). -/
def p25519 : Nat := 2 ^ 255 - 19

/-- `P256 = 2^256 - 2^224 + 2^192 + 2^96 - 1` (R7, R152). -/
def p256 : Nat := 2 ^ 256 - 2 ^ 224 + 2 ^ 192 + 2 ^ 96 - 1

/-- `(a * b) mod m`, the product exact (R150). -/
def mulMod (a b : Val) (m : Nat) : Val := BitVec.ofNat 256 (a.toNat * b.toNat % m)

/-- MUL25519 (R151). -/
def execMul25519 (op1 op2 op3 : RegNo) (s : State) : Result :=
  .next (s.writeResult op1 (mulMod (s.reg op2) (s.reg op3) p25519))

/-- MUL256 (R152). -/
def execMul256 (op1 op2 op3 : RegNo) (s : State) : Result :=
  .next (s.writeResult op1 (mulMod (s.reg op2) (s.reg op3) p256))

/-- ADDP (R153). -/
def execAddp (op1 op2 op3 : RegNo) (s : State) : Result :=
  s.modularResult op1 ((s.reg op2).toNat + (s.reg op3).toNat)

/-- SUBP (R154): the difference is exact and may be negative. -/
def execSubp (op1 op2 op3 : RegNo) (s : State) : Result :=
  s.modularResult op1 ((s.reg op2).toNat - (s.reg op3).toNat)

/-- MULP (R155). -/
def execMulp (op1 op2 op3 : RegNo) (s : State) : Result :=
  s.modularResult op1 ((s.reg op2).toNat * (s.reg op3).toNat)

/-- REDP (R156): the 512-bit value `op2 || op3`. -/
def execRedp (op1 op2 op3 : RegNo) (s : State) : Result :=
  s.modularResult op1 ((s.reg op2 ++ s.reg op3 : BitVec 512).toNat)

end Sys2Proof.Machine
end

