-- ==== Sys2Proof/Machine/Shift.lean ====
section
/-! DEFINITION. The shifts, rotations and the byte swap: LSL, LSR, ROL, ROR, ROL8, ROR8, ROLIN, RORIN,
SWE (41_r_shift.md rules R130 to R139). None writes Z; LSL, LSR, ROL and ROR write C (R130). -/

namespace Sys2Proof.Machine

/-- `a[254:0] || b`: one bit enters at bit 0 (R131, R133). -/
def shiftInLow (a : Val) (b : BitVec 1) : Val := (a.extractLsb' 0 255 ++ b : BitVec 256)

/-- `b || a[255:1]`: one bit enters at bit 255 (R132, R134). -/
def shiftInHigh (b : BitVec 1) (a : Val) : Val := (b ++ a.extractLsb' 1 255 : BitVec 256)

/-- `a[247:0] || b`: one byte enters at bits 7..0 (R135, R137). -/
def byteInLow (a : Val) (b : BitVec 8) : Val := (a.extractLsb' 0 248 ++ b : BitVec 256)

/-- `b || a[255:8]`: one byte enters at bits 255..248 (R136, R138). -/
def byteInHigh (b : BitVec 8) (a : Val) : Val := (b ++ a.extractLsb' 8 248 : BitVec 256)

/-- `a[255:248]`. -/
def topByte (a : Val) : BitVec 8 := a.extractLsb' 248 8

/-- `a[7:0]`. -/
def bottomByte (a : Val) : BitVec 8 := a.extractLsb' 0 8

/-- The first `n` byte moves of SWE: byte `k` of `a` goes to byte `31 - k` (R139). -/
def swapBytes (a : Val) : Nat → Val
  | 0 => 0
  | n + 1 => swapBytes a n ||| ((a.extractLsb' (8 * n) 8).setWidth 256 <<< (8 * (31 - n)))

/-- LSL (R131). -/
def execLsl (op1 op2 : RegNo) (s : State) : Result :=
  .next (s.writeResultC op1 (shiftInLow (s.reg op2) 0#1) (carryLeft (s.reg op2)))

/-- LSR (R132). -/
def execLsr (op1 op2 : RegNo) (s : State) : Result :=
  .next (s.writeResultC op1 (shiftInHigh 0#1 (s.reg op2)) (carryRight (s.reg op2)))

/-- ROL (R133): not through C. -/
def execRol (op1 op2 : RegNo) (s : State) : Result :=
  .next (s.writeResultC op1 (shiftInLow (s.reg op2) ((s.reg op2).extractLsb' 255 1))
    (carryLeft (s.reg op2)))

/-- ROR (R134): not through C. -/
def execRor (op1 op2 : RegNo) (s : State) : Result :=
  .next (s.writeResultC op1 (shiftInHigh ((s.reg op2).extractLsb' 0 1) (s.reg op2))
    (carryRight (s.reg op2)))

/-- ROL8 (R135). -/
def execRol8 (op1 op2 : RegNo) (s : State) : Result :=
  .next (s.writeResult op1 (byteInLow (s.reg op2) (topByte (s.reg op2))))

/-- ROR8 (R136). -/
def execRor8 (op1 op2 : RegNo) (s : State) : Result :=
  .next (s.writeResult op1 (byteInHigh (bottomByte (s.reg op2)) (s.reg op2)))

/-- ROLIN (R137). -/
def execRolin (op1 op2 op3 : RegNo) (s : State) : Result :=
  .next (s.writeResult op1 (byteInLow (s.reg op2) (topByte (s.reg op3))))

/-- RORIN (R138). -/
def execRorin (op1 op2 op3 : RegNo) (s : State) : Result :=
  .next (s.writeResult op1 (byteInHigh (bottomByte (s.reg op3)) (s.reg op2)))

/-- SWE (R139). -/
def execSwe (op1 op2 : RegNo) (s : State) : Result :=
  .next (s.writeResult op1 (swapBytes (s.reg op2) 32))

end Sys2Proof.Machine
end

