-- ==== Sys2Proof/Machine/Sha512.lean ====
section
/-! DEFINITION. SHA-512 as 44_r_units.md rules R191 to R193 give it: the initial value, the compression
function, and the big-endian mapping of block and state (D22), kept apart from the machine as R193 asks. -/

namespace Sys2Proof.Machine

/-- A 64-bit word of SHA-512 (R192). -/
abbrev ShaWord := BitVec 64

/-- `SHA512_INIT = H0 || H1 || ... || H7` (R191). -/
def sha512Init : BitVec 512 :=
  (0x6A09E667F3BCC908#64 ++ 0xBB67AE8584CAA73B#64 ++ 0x3C6EF372FE94F82B#64 ++
    0xA54FF53A5F1D36F1#64 ++ 0x510E527FADE682D1#64 ++ 0x9B05688C2B3E6C1F#64 ++
    0x1F83D9ABFB41BD6B#64 ++ 0x5BE0CD19137E2179#64 : BitVec 512)

/-- `K[0..39]` (R192). -/
def shaK0 : List (BitVec 64) :=
  [0x428A2F98D728AE22#64, 0x7137449123EF65CD#64, 0xB5C0FBCFEC4D3B2F#64, 0xE9B5DBA58189DBBC#64,
   0x3956C25BF348B538#64, 0x59F111F1B605D019#64, 0x923F82A4AF194F9B#64, 0xAB1C5ED5DA6D8118#64,
   0xD807AA98A3030242#64, 0x12835B0145706FBE#64, 0x243185BE4EE4B28C#64, 0x550C7DC3D5FFB4E2#64,
   0x72BE5D74F27B896F#64, 0x80DEB1FE3B1696B1#64, 0x9BDC06A725C71235#64, 0xC19BF174CF692694#64,
   0xE49B69C19EF14AD2#64, 0xEFBE4786384F25E3#64, 0x0FC19DC68B8CD5B5#64, 0x240CA1CC77AC9C65#64,
   0x2DE92C6F592B0275#64, 0x4A7484AA6EA6E483#64, 0x5CB0A9DCBD41FBD4#64, 0x76F988DA831153B5#64,
   0x983E5152EE66DFAB#64, 0xA831C66D2DB43210#64, 0xB00327C898FB213F#64, 0xBF597FC7BEEF0EE4#64,
   0xC6E00BF33DA88FC2#64, 0xD5A79147930AA725#64, 0x06CA6351E003826F#64, 0x142929670A0E6E70#64,
   0x27B70A8546D22FFC#64, 0x2E1B21385C26C926#64, 0x4D2C6DFC5AC42AED#64, 0x53380D139D95B3DF#64,
   0x650A73548BAF63DE#64, 0x766A0ABB3C77B2A8#64, 0x81C2C92E47EDAEE6#64, 0x92722C851482353B#64]

/-- `K[40..79]` (R192). -/
def shaK40 : List (BitVec 64) :=
  [0xA2BFE8A14CF10364#64, 0xA81A664BBC423001#64, 0xC24B8B70D0F89791#64, 0xC76C51A30654BE30#64,
   0xD192E819D6EF5218#64, 0xD69906245565A910#64, 0xF40E35855771202A#64, 0x106AA07032BBD1B8#64,
   0x19A4C116B8D2D0C8#64, 0x1E376C085141AB53#64, 0x2748774CDF8EEB99#64, 0x34B0BCB5E19B48A8#64,
   0x391C0CB3C5C95A63#64, 0x4ED8AA4AE3418ACB#64, 0x5B9CCA4F7763E373#64, 0x682E6FF3D6B2B8A3#64,
   0x748F82EE5DEFB2FC#64, 0x78A5636F43172F60#64, 0x84C87814A1F0AB72#64, 0x8CC702081A6439EC#64,
   0x90BEFFFA23631E28#64, 0xA4506CEBDE82BDE9#64, 0xBEF9A3F7B2C67915#64, 0xC67178F2E372532B#64,
   0xCA273ECEEA26619C#64, 0xD186B8C721C0C207#64, 0xEADA7DD6CDE0EB1E#64, 0xF57D4F7FEE6ED178#64,
   0x06F067AA72176FBA#64, 0x0A637DC5A2C898A6#64, 0x113F9804BEF90DAE#64, 0x1B710B35131C471B#64,
   0x28DB77F523047D84#64, 0x32CAAB7B40C72493#64, 0x3C9EBE0A15C9BEBC#64, 0x431D67C49C100D4C#64,
   0x4CC5D4BECB3E42B6#64, 0x597F299CFC657E2A#64, 0x5FCB6FAB3AD6FAEC#64, 0x6C44198C4A475817#64]

/-- The eighty constants `K[0..79]` (R192). -/
def shaK : List ShaWord := shaK0 ++ shaK40

/-- `s0(x)` (R192). -/
def shaS0 (x : ShaWord) : ShaWord := x.rotateRight 1 ^^^ x.rotateRight 8 ^^^ (x >>> 7)

/-- `s1(x)` (R192). -/
def shaS1 (x : ShaWord) : ShaWord := x.rotateRight 19 ^^^ x.rotateRight 61 ^^^ (x >>> 6)

/-- `S0(x)` (R192). -/
def shaBigS0 (x : ShaWord) : ShaWord := x.rotateRight 28 ^^^ x.rotateRight 34 ^^^ x.rotateRight 39

/-- `S1(x)` (R192). -/
def shaBigS1 (x : ShaWord) : ShaWord := x.rotateRight 14 ^^^ x.rotateRight 18 ^^^ x.rotateRight 41

/-- `Ch(x,y,z)` (R192). -/
def shaCh (x y z : ShaWord) : ShaWord := (x &&& y) ^^^ (~~~x &&& z)

/-- `Maj(x,y,z)` (R192). -/
def shaMaj (x y z : ShaWord) : ShaWord := (x &&& y) ^^^ (x &&& z) ^^^ (y &&& z)

/-- The eight working variables a..h (R192). -/
structure ShaVars where
  a : ShaWord
  b : ShaWord
  c : ShaWord
  d : ShaWord
  e : ShaWord
  f : ShaWord
  g : ShaWord
  h : ShaWord
  deriving DecidableEq, Repr

/-- Word `i` of a 512-bit state, word 0 in the top 64 bits (R193). -/
def stateWord (v : BitVec 512) (i : Nat) : ShaWord := v.extractLsb' (64 * (7 - i)) 64

/-- Word `i` of a 1024-bit block, word 0 in the top 64 bits (R193). -/
def messageWord (v : BitVec 1024) (i : Nat) : ShaWord := v.extractLsb' (64 * (15 - i)) 64

/-- One round `t`, with `K[t]` and `W[t]` (R192). -/
def shaRound (v : ShaVars) (k w : ShaWord) : ShaVars :=
  let t1 := v.h + shaBigS1 v.e + shaCh v.e v.f v.g + k + w
  let t2 := shaBigS0 v.a + shaMaj v.a v.b v.c
  ⟨t1 + t2, v.a, v.b, v.c, v.d + t1, v.e, v.f, v.g⟩

/-- The rounds over the constants that are left; `win` holds `W[t], W[t+1], ..., W[t+15]`, and gets
`W[t+16] = s1(W[t+14]) + W[t+9] + s0(W[t+1]) + W[t]` at its end (R192). -/
def shaRounds : List ShaWord → List ShaWord → ShaVars → ShaVars
  | [], _, v => v
  | k :: ks, win, v =>
    let w := win.getD 0 0
    let new := shaS1 (win.getD 14 0) + win.getD 9 0 + shaS0 (win.getD 1 0) + w
    shaRounds ks (win.drop 1 ++ [new]) (shaRound v k w)

/-- The sixteen message words of a block, `W[0..15]` (R192). -/
def shaWindow (block : BitVec 1024) : List ShaWord :=
  [messageWord block 0, messageWord block 1, messageWord block 2, messageWord block 3,
   messageWord block 4, messageWord block 5, messageWord block 6, messageWord block 7,
   messageWord block 8, messageWord block 9, messageWord block 10, messageWord block 11,
   messageWord block 12, messageWord block 13, messageWord block 14, messageWord block 15]

/-- The eight chaining words of a state as working variables (R192). -/
def shaStart (state : BitVec 512) : ShaVars :=
  ⟨stateWord state 0, stateWord state 1, stateWord state 2, stateWord state 3,
   stateWord state 4, stateWord state 5, stateWord state 6, stateWord state 7⟩

/-- `SHA512_COMPRESS(state, block)` (R192). Irreducible, so that no tactic unfolds its 80 rounds unasked. -/
@[irreducible]
def sha512Compress (state : BitVec 512) (block : BitVec 1024) : BitVec 512 :=
  let i := shaStart state
  let v := shaRounds shaK (shaWindow block) i
  ((i.a + v.a) ++ (i.b + v.b) ++ (i.c + v.c) ++ (i.d + v.d) ++
    (i.e + v.e) ++ (i.f + v.f) ++ (i.g + v.g) ++ (i.h + v.h) : BitVec 512)

end Sys2Proof.Machine
end

