-- ==== Sys2Proof/Machine/Units.lean ====
section
/-! DEFINITION. The instructions that drive the hash, TMAC, random and blinding units: HASH, TMAC_IT,
TMAC_UP, TMAC_RD, GRV, SCB (44_r_units.md rules R190 to R208), HASH_IT and TMAC_IS (45_i_instructions.md
rules R241, R242). None writes a flag or accesses the data memory. -/

namespace Sys2Proof.Machine

/-- HASH (R194). -/
def execHash (op1 op2 : RegNo) (s : State) : Result :=
  if lastGroupOfFour < op2.toNat ∨ lastPair < op1.toNat then
    raise (.registerIndexOutOfRange s.pcValue)
  else
    .next (((s.setSha (sha512Compress s.sha (s.regGroup op2))).setRegPair op1
      (sha512Compress s.sha (s.regGroup op2))).advance)

/-- HASH_IT (R241). -/
def execHashIt (s : State) : Result :=
  .next (s.setSha sha512Init).advance

/-- TMAC_IT (R198). -/
def execTmacIt (op2 : RegNo) (s : State) : Result :=
  if lastGroupOfFour < op2.toNat then raise (.registerIndexOutOfRange s.pcValue)
  else .next (s.setTmac (Config.tmacInit (s.regGroup op2))).advance

/-- TMAC_IS (R242). -/
def execTmacIs (op2 : RegNo) (imm : Imm) (s : State) : Result :=
  if initstringImmOk imm then
    .next (s.setTmac (Config.tmacInitstr s.tmac (s.reg op2) (initstringN imm))).advance
  else raise (.illegalInstruction s.pcValue s.fetchedWord)

/-- TMAC_UP (R199). -/
def execTmacUp (op2 : RegNo) (s : State) : Result :=
  .next (s.setTmac (Config.tmacUpdate s.tmac (tmacBlock (s.reg op2)))).advance

/-- TMAC_RD (R200). -/
def execTmacRd (op1 : RegNo) (s : State) : Result :=
  .next ((s.setReg op1 (Config.tmacResult s.tmac)).setTmac (Config.tmacAfterRd s.tmac)).advance

/-- GRV (R205). -/
def execGrv (op1 : RegNo) (s : State) : Result :=
  .next ((s.setReg op1 s.drawValue).countDraw).advance

/-- SCB (R208). -/
def execScb (op1 op2 op3 : RegNo) (s : State) : Result :=
  if lastPair < op1.toNat then raise (.registerIndexOutOfRange s.pcValue)
  else
    .next (s.setRegPair op1 (Config.blind (s.reg op2) (s.reg op3) (s.reg modulusReg))).advance

end Sys2Proof.Machine
end

