-- ==== Sys2Proof/Machine/Dispatch.lean ====
section
/-! DEFINITION. The dispatch: one arm per constructor of `Instr`, each one call of that instruction's
meaning. -/

namespace Sys2Proof.Machine

def exec (i : Instr) (s : State) : Host.Outcome State Fault Refusal :=
  match i with
  | .add op1 op2 op3 => Sys2Proof.Machine.execAdd op1 op2 op3 s
  | .sub op1 op2 op3 => Sys2Proof.Machine.execSub op1 op2 op3 s
  | .cmp op2 op3 => Sys2Proof.Machine.execCmp op2 op3 s
  | .and op1 op2 op3 => Sys2Proof.Machine.execAnd op1 op2 op3 s
  | .or op1 op2 op3 => Sys2Proof.Machine.execOr op1 op2 op3 s
  | .xor op1 op2 op3 => Sys2Proof.Machine.execXor op1 op2 op3 s
  | .not op1 op2 => Sys2Proof.Machine.execNot op1 op2 s
  | .sbit op1 op2 op3 => Sys2Proof.Machine.execSbit op1 op2 op3 s
  | .cbit op1 op2 op3 => Sys2Proof.Machine.execCbit op1 op2 op3 s
  | .lsl op1 op2 => Sys2Proof.Machine.execLsl op1 op2 s
  | .lsr op1 op2 => Sys2Proof.Machine.execLsr op1 op2 s
  | .rol op1 op2 => Sys2Proof.Machine.execRol op1 op2 s
  | .ror op1 op2 => Sys2Proof.Machine.execRor op1 op2 s
  | .rol8 op1 op2 => Sys2Proof.Machine.execRol8 op1 op2 s
  | .ror8 op1 op2 => Sys2Proof.Machine.execRor8 op1 op2 s
  | .rolin op1 op2 op3 => Sys2Proof.Machine.execRolin op1 op2 op3 s
  | .rorin op1 op2 op3 => Sys2Proof.Machine.execRorin op1 op2 op3 s
  | .swe op1 op2 => Sys2Proof.Machine.execSwe op1 op2 s
  | .mul25519 op1 op2 op3 => Sys2Proof.Machine.execMul25519 op1 op2 op3 s
  | .mul256 op1 op2 op3 => Sys2Proof.Machine.execMul256 op1 op2 op3 s
  | .addp op1 op2 op3 => Sys2Proof.Machine.execAddp op1 op2 op3 s
  | .subp op1 op2 op3 => Sys2Proof.Machine.execSubp op1 op2 op3 s
  | .mulp op1 op2 op3 => Sys2Proof.Machine.execMulp op1 op2 op3 s
  | .redp op1 op2 op3 => Sys2Proof.Machine.execRedp op1 op2 op3 s
  | .ldr op1 op2 => Sys2Proof.Machine.execLdr op1 op2 s
  | .str op1 op2 => Sys2Proof.Machine.execStr op1 op2 s
  | .mov op1 op2 => Sys2Proof.Machine.execMov op1 op2 s
  | .cswap op1 op2 => Sys2Proof.Machine.execCswap op1 op2 s
  | .zswap op1 op2 => Sys2Proof.Machine.execZswap op1 op2 s
  | .hash op1 op2 => Sys2Proof.Machine.execHash op1 op2 s
  | .tmacIt op2 => Sys2Proof.Machine.execTmacIt op2 s
  | .tmacUp op2 => Sys2Proof.Machine.execTmacUp op2 s
  | .tmacRd op1 => Sys2Proof.Machine.execTmacRd op1 s
  | .grv op1 => Sys2Proof.Machine.execGrv op1 s
  | .scb op1 op2 op3 => Sys2Proof.Machine.execScb op1 op2 op3 s
  | .addi op1 op2 imm => Sys2Proof.Machine.execAddi op1 op2 imm s
  | .subi op1 op2 imm => Sys2Proof.Machine.execSubi op1 op2 imm s
  | .cmpi op2 imm => Sys2Proof.Machine.execCmpi op2 imm s
  | .andi op1 op2 imm => Sys2Proof.Machine.execAndi op1 op2 imm s
  | .ori op1 op2 imm => Sys2Proof.Machine.execOri op1 op2 imm s
  | .xori op1 op2 imm => Sys2Proof.Machine.execXori op1 op2 imm s
  | .ldk op1 op2 imm => Sys2Proof.Machine.execLdk op1 op2 imm s
  | .stk op1 op2 imm => Sys2Proof.Machine.execStk op1 op2 imm s
  | .kbo op2 imm => Sys2Proof.Machine.execKbo op2 imm s
  | .movi op1 imm => Sys2Proof.Machine.execMovi op1 imm s
  | .hashIt => Sys2Proof.Machine.execHashIt s
  | .tmacIs op2 imm => Sys2Proof.Machine.execTmacIs op2 imm s
  | .ld op1 addr => Sys2Proof.Machine.execLd op1 addr s
  | .st op1 addr => Sys2Proof.Machine.execSt op1 addr s
  | .call newpc => Sys2Proof.Machine.execCall newpc s
  | .ret => Sys2Proof.Machine.execRet s
  | .brz newpc => Sys2Proof.Machine.execBrz newpc s
  | .brnz newpc => Sys2Proof.Machine.execBrnz newpc s
  | .brc newpc => Sys2Proof.Machine.execBrc newpc s
  | .brnc newpc => Sys2Proof.Machine.execBrnc newpc s
  | .bre newpc => Sys2Proof.Machine.execBre newpc s
  | .brne newpc => Sys2Proof.Machine.execBrne newpc s
  | .jmp newpc => Sys2Proof.Machine.execJmp newpc s
  | .endFw => Sys2Proof.Machine.execEnd s
  | .nop => Sys2Proof.Machine.execNop s

end Sys2Proof.Machine
end

