-- ==== Sys2Proof/Machine/Timing.lean ====
section
/-! DEFINITION. The column #C of the source's tables (R340), for the ghost cycle counter of R341. No rule
reads time. -/

namespace Sys2Proof.Machine

/-- "Number of cycles the instruction takes to execute" (R340); `none` where the source gives "-". -/
def cyclesOf : Op → Option Nat
  | .add => some 11
  | .sub => some 11
  | .cmp => some 9
  | .and => some 11
  | .or => some 11
  | .xor => some 11
  | .not => some 10
  | .sbit => some 11
  | .cbit => some 11
  | .lsl => some 10
  | .lsr => some 10
  | .rol => some 10
  | .ror => some 10
  | .rol8 => some 10
  | .ror8 => some 10
  | .rolin => some 11
  | .rorin => some 11
  | .swe => some 10
  | .mul25519 => some 91
  | .mul256 => some 139
  | .addp => some 16
  | .subp => some 16
  | .mulp => some 597
  | .redp => some 528
  | .ldr => none
  | .str => none
  | .mov => some 7
  | .cswap => some 11
  | .zswap => some 11
  | .hash => some 347
  | .tmacIt => some 94
  | .tmacUp => some 44
  | .tmacRd => some 84
  | .grv => none
  | .scb => some 88
  | .addi => some 11
  | .subi => some 11
  | .cmpi => some 9
  | .andi => some 11
  | .ori => some 11
  | .xori => some 11
  | .ldk => none
  | .stk => none
  | .kbo => none
  | .movi => some 6
  | .hashIt => some 9
  | .tmacIs => some 78
  | .ld => none
  | .st => none
  | .call => some 5
  | .ret => some 5
  | .brz => some 5
  | .brnz => some 5
  | .brc => some 5
  | .brnc => some 5
  | .bre => some 5
  | .brne => some 5
  | .jmp => some 5
  | .endFw => some 4
  | .nop => some 3

end Sys2Proof.Machine
end

