-- ==== Sys2Proof/Machine/Step.lean ====
section
/-! DEFINITION. One step (R315): fetch, decode, execute. -/

namespace Sys2Proof.Machine

/-- One step of the core (R315): the word at the pc is fetched (R52) and decoded (R95) and the
instruction's rule is executed; or the step ends in a `Fault` (R300). When `run` is `Done` or `Faulted`
there is no step (R38). Around `exec` the step only counts #C in the ghost counter (R341). -/
def step (s : State) : Host.Outcome State Fault Refusal :=
  match s.run with
  | .done => .refused .notRunning
  | .faulted _ => .refused .notRunning
  | .running =>
    match s.fetch with
    | none => .fault (.fetchOutOfRange s.pcValue)
    | some w =>
      match decode s.parityMode w with
      | .error _ => .fault (.illegalInstruction s.pcValue w)
      | .ok i =>
        match exec i s with
        | .next t => .next (t.tick (cyclesOf i.op))
        | .fault f => .fault f
        | .refused r => .refused r

/-- `s` with the instruction word `w` in `IMEM` at the pc, and the core about to fetch it there: running,
the pc a multiple of 4 and not past the top. This stands for the host's load of a program (R314,
notes/assumptions/6.md). -/
def State.withFetchWord (s : State) (nbits w : Nat) : State :=
  { s with
    pc := s.pc &&& 0xFFFC#16
    pcCarry := false
    run := .running
    imem := s.imem.put (s.pc &&& 0xFFFC#16).toNat (BitVec.ofNat 32 (w % 2 ^ nbits)) }

end Sys2Proof.Machine
end

