-- ==== Sys2Proof/WellFormed.lean ====
section
/-! DEFINITION. Which instructions are well formed: the operand values that the spec admits beyond
what the formats of 30_encoding.md let a field hold (the keys `constraint` and `imm_zero_mask` of
opcode_table.json; R91, R190, R237, R238, R239, R242). The decoder gives the others too; their
meanings raise the `Fault` that those rules name. -/

namespace Sys2Proof

/-- The operand limits of R190 (register groups) and of R91 (Immediate bits that no sub-field names). -/
def Instr.wellFormed : Instr → Bool
  | .add _ _ _ => true
  | .sub _ _ _ => true
  | .cmp _ _ => true
  | .and _ _ _ => true
  | .or _ _ _ => true
  | .xor _ _ _ => true
  | .not _ _ => true
  | .sbit _ _ _ => true
  | .cbit _ _ _ => true
  | .lsl _ _ => true
  | .lsr _ _ => true
  | .rol _ _ => true
  | .ror _ _ => true
  | .rol8 _ _ => true
  | .ror8 _ _ => true
  | .rolin _ _ _ => true
  | .rorin _ _ _ => true
  | .swe _ _ => true
  | .mul25519 _ _ _ => true
  | .mul256 _ _ _ => true
  | .addp _ _ _ => true
  | .subp _ _ _ => true
  | .mulp _ _ _ => true
  | .redp _ _ _ => true
  | .ldr _ _ => true
  | .str _ _ => true
  | .mov _ _ => true
  | .cswap _ _ => true
  | .zswap _ _ => true
  | .hash op1 op2 => decide (op1.toNat ≤ 30) && decide (op2.toNat ≤ 28)
  | .tmacIt op2 => decide (op2.toNat ≤ 28)
  | .tmacUp _ => true
  | .tmacRd _ => true
  | .grv _ => true
  | .scb op1 _ _ => decide (op1.toNat ≤ 30)
  | .addi _ _ _ => true
  | .subi _ _ _ => true
  | .cmpi _ _ => true
  | .andi _ _ _ => true
  | .ori _ _ _ => true
  | .xori _ _ _ => true
  | .ldk _ _ imm => imm &&& 0x0E0 == 0
  | .stk _ _ imm => imm &&& 0x0E0 == 0
  | .kbo _ imm => imm &&& 0x0F0 == 0
  | .movi _ _ => true
  | .hashIt => true
  | .tmacIs _ imm => imm &&& 0xF00 == 0
  | .ld _ _ => true
  | .st _ _ => true
  | .call _ => true
  | .ret => true
  | .brz _ => true
  | .brnz _ => true
  | .brc _ => true
  | .brnc _ => true
  | .bre _ => true
  | .brne _ => true
  | .jmp _ => true
  | .endFw => true
  | .nop => true

end Sys2Proof
end

