-- ==== Sys2Proof/Safety.lean ====
section
/-! DEFINITION. The terms that claims about SPECT are stated in: the invariant of the states a run
reaches, the outcome of a run (R300, R336), and what an instruction leaves unchanged. -/

namespace Sys2Proof.Machine

/-! ### The invariant -/

/-- The pc is a multiple of 4, and past the top only as 0x10000 (R25, R26). -/
abbrev State.PcInv (s : State) : Prop :=
  s.pc.toNat % 4 = 0 ∧ (s.pcCarry = true → s.pc = 0)

/-- RAR holds at most `RAR_DEPTH` return addresses (R32), each a multiple of 4 (R271). That `RAR_DEPTH` is
positive (R8) holds by its type. -/
abbrev State.RarInv (s : State) : Prop :=
  s.rar.length ≤ s.rarDepth.val ∧ s.rar.all targetOk = true

/-- The data memory is in its canonical form and inside the address space of R50; the program is a
partial map from multiples of 4 in 0x0000..0xFFFC (R52). -/
abbrev State.MemInv (s : State) : Prop :=
  s.mem.wf = true ∧ s.mem.all (fun p => decide (p.1 ≤ 0xFFFF)) = true ∧ s.imem.wf = true

/-- STATUS[DONE] is 1 exactly when the run is `Done` (R37, R38, R282). -/
abbrev State.DoneInv (s : State) : Prop :=
  s.statusDone = true ↔ s.run = .done

/-- What holds in every state of a run: `State.reset` has it and every step keeps it. -/
abbrev State.Inv (s : State) : Prop :=
  s.PcInv ∧ s.RarInv ∧ s.MemInv ∧ s.DoneInv

/-! ### Runs -/

/-- A successful final state, the only kind there is (R336). -/
def State.final (s : State) : Bool := s.run == .done

/-- The state after a step, a fault included (R300); `none` when there is no step (R38). -/
def State.after (s : State) : Option State :=
  match step s with
  | .next t => some t
  | .fault f => some (s.afterFault f)
  | .refused _ => none

/-- A run that reaches its END within `n` steps, without a fault (R336). -/
def State.reachesEnd (s : State) : Nat → Bool
  | 0 => s.final
  | n + 1 => s.final || match step s with
    | .next t => State.reachesEnd t n
    | _ => false

/-! ### When an access is admitted -/

/-- The eight words at `ea` are in the address space, aligned and readable (R55, R57). -/
def State.CanRead (s : State) (ea : Nat) : Prop :=
  ea ≤ 0xFFE0 ∧ ea % 4 = 0 ∧ ∀ k < 8, s.readAdmitted (ea + 4 * k) = true

/-- The eight words at `ea` are in the address space, aligned and writable (R56, R58). -/
def State.CanWrite (s : State) (ea : Nat) : Prop :=
  ea ≤ 0xFFE0 ∧ ea % 4 = 0 ∧ ∀ k < 8, s.writeAdmitted (ea + 4 * k) = true

/-! ### What is unchanged -/

/-- Every general register outside `l` is as before. -/
def SameRegsBut (l : List RegNo) (s t : State) : Prop := ∀ r, r ∉ l → t.reg r = s.reg r

/-- Every byte of the data memory is as before. -/
def SameMem (s t : State) : Prop := ∀ a, t.mem.get a = s.mem.get a

/-- Every byte of the data memory outside the `n` bytes at `ea` is as before. -/
def SameMemOutside (ea n : Nat) (s t : State) : Prop :=
  ∀ a, a < ea ∨ ea + n ≤ a → t.mem.get a = s.mem.get a

/-- Z, C and E are as before. -/
def SameFlags (s t : State) : Prop :=
  t.flagZ = s.flagZ ∧ t.flagC = s.flagC ∧ t.flagE = s.flagE

/-- The unit states are as before (R35, R36). -/
def SameUnits (s t : State) : Prop := t.sha = s.sha ∧ t.tmac = s.tmac

/-- No key-bus request and no random draw was made (R236, R205). -/
def SameOutside (s t : State) : Prop := t.kbusLog = s.kbusLog ∧ t.draws = s.draws

/-- STATUS[DONE] and the run status are as before (R37, R38). -/
def SameStatus (s t : State) : Prop := t.statusDone = s.statusDone ∧ t.run = s.run

/-- The platform's parameters are as before (R8). -/
def SamePlatform (s t : State) : Prop :=
  t.imem = s.imem ∧ t.readable = s.readable ∧ t.writable = s.writable ∧ t.rarDepth = s.rarDepth ∧
    t.parityMode = s.parityMode ∧ t.byteOrder = s.byteOrder

/-- Everything but the general registers, the flags, the pc and the data memory is as before. -/
def SameRest (s t : State) : Prop :=
  t.rar = s.rar ∧ SameUnits s t ∧ SameOutside s t ∧ SameStatus s t ∧ SamePlatform s t ∧
    t.cycles = s.cycles

/-- The pc went on by 4, without wrap-around (R25). -/
def Advanced (s t : State) : Prop := t.pcValue = s.pc.toNat + 4

/-- The pc was loaded with `target` (R270). -/
def WentTo (target : Addr) (t : State) : Prop := t.pc = target ∧ t.pcCarry = false

/-- The frame of an instruction that writes the registers in `l`, flags apart, and goes on. -/
def OnlyRegs (l : List RegNo) (s t : State) : Prop :=
  SameRegsBut l s t ∧ SameMem s t ∧ SameRest s t ∧ Advanced s t

end Sys2Proof.Machine
end

