-- ==== Sys2Proof/Certificates/Slice0/Obligations.lean ====
section
/-! DEFINITION. The statements about the model, for the provers. `OnlyRegs l s t` (Safety.lean) is the frame:
from `s` to `t` every general register outside `l`, every byte of the data memory, RAR, the unit states, the
key-bus history, the draws, STATUS[DONE], the run status and the platform are unchanged, and the pc went on
by 4; the flags are named in each statement. -/

open Sys2Proof Sys2Proof.Machine

/-! ### Encoding -/

/-- R95, R96: decoding undoes encoding, for every instruction with every value of its operand fields,
under every parity mode. -/
def Obligations.DecodeEncodeAgree : Prop :=
  ∀ (mode : ParityMode) (i : Instr), decode mode (encode mode i) = .ok i

/-- R95, R96: every word that decodes is the encoding of what it decodes to, but for bit 31 under
`PARITY_MODE` none, which is ignored. -/
def Obligations.EncodeDecodeAgree : Prop :=
  ∀ (mode : ParityMode) (w : Word) (i : Instr), decode mode w = .ok i →
    encode mode i = if mode = .none then w &&& 0x7FFFFFFF else w

/-- R95: at most one row matches a word, because the values of bits 30..22 are distinct. -/
def Obligations.SelectorsAreDistinct : Prop :=
  ∀ (w : Word) (o p : Op), w &&& selectMask = (encRow o).pattern &&& selectMask →
    w &&& selectMask = (encRow p).pattern &&& selectMask → o = p

/-- R92: a word whose bits 30..22 match no row is an illegal instruction; 60 of the 512 values of these
bits are assigned; every word with opcode 0 is illegal. -/
def Obligations.IllegalSelectorFaults : Prop :=
  (∀ (s : State) (w : Word), s.run = .running → s.fetch = some w → parityOk s.parityMode w = true →
    (∀ o : Op, w &&& selectMask ≠ (encRow o).pattern) →
    step s = .fault (.illegalInstruction s.pcValue w)) ∧
  (List.range 512).countP (fun n =>
    allOps.any fun o => (encRow o).pattern == BitVec.ofNat 32 n <<< 22) = 60 ∧
  (∀ (mode : ParityMode) (w : Word) (i : Instr), w.extractLsb' 25 4 = 0 → decode mode w ≠ .ok i)

/-- R91: a word that selects a row but has a 1 in a bit the row leaves unused is an illegal instruction. -/
def Obligations.UnusedBitFaults : Prop :=
  ∀ (s : State) (w : Word) (o : Op), s.run = .running → s.fetch = some w →
    parityOk s.parityMode w = true → w &&& selectMask = (encRow o).pattern →
    w &&& (encRow o).mask ≠ (encRow o).pattern →
    step s = .fault (.illegalInstruction s.pcValue w)

/-- R87: bit 31 is ignored under `none`; under `even` and `odd` a fetched word with the wrong `p` is an
illegal instruction, and the encoder writes the right one. -/
def Obligations.ParityBitRules : Prop :=
  (∀ w : Word, decode .none w = decode .none (w ^^^ 0x80000000)) ∧
  (∀ i : Instr, (encode .none i).getLsbD 31 = false ∧ xorBits (encode .even i) 32 = false ∧
    xorBits (encode .odd i) 32 = true) ∧
  (∀ (s : State) (w : Word), s.run = .running → s.fetch = some w →
    (s.parityMode = .even → xorBits w 32 = true →
      step s = .fault (.illegalInstruction s.pcValue w)) ∧
    (s.parityMode = .odd → xorBits w 32 = false →
      step s = .fault (.illegalInstruction s.pcValue w)))

/-- 95_test_vectors.md V-0: words written out from R90 decode to the instructions they stand for, and two that
must not decode are rejected. -/
def Obligations.SampleWordsDecode : Prop :=
  decode .none 0x026AA980 = .ok (.add 21 10 19) ∧ decode .none 0x0640A980 = .ok (.cmp 10 19) ∧
  decode .none 0x12EAA000 = .ok (.swe 21 10) ∧ decode .none 0x0D2AA980 = .ok (.redp 21 10 19) ∧
  decode .none 0x036AA000 = .ok (.ldr 21 10) ∧ decode .none 0x0B808000 = .ok (.tmacIt 8) ∧
  decode .none 0x22AAAABC = .ok (.andi 21 10 0xABC) ∧ decode .none 0x27C0AA05 = .ok (.kbo 10 0xA05) ∧
  decode .none 0x456A1234 = .ok (.st 21 0x1234) ∧ decode .none 0x66005678 = .ok (.brz 0x5678) ∧
  decode .none 0x00000000 = .error .noSuchInstruction ∧
  decode .none 0x02422181 = .error .unusedBitSet

/-! ### The step -/

/-- R315: when the word at the pc decodes to `i`, the step is `i`'s meaning, with #C added to the ghost
counter (R341). -/
def Obligations.StepRunsDecodedInstruction : Prop :=
  ∀ (s : State) (w : Word) (i : Instr), s.run = .running → s.fetch = some w →
    decode s.parityMode w = .ok i →
    (∀ t, exec i s = .next t → step s = .next (t.tick (cyclesOf i.op))) ∧
    (∀ f, exec i s = .fault f → step s = .fault f)

/-- R52: the word fetched is `IMEM(pc)`, outside the domain of `IMEM` the step faults, no step changes
`IMEM`, and no data access is admitted to an address of its domain. -/
def Obligations.ProgramMemoryRules : Prop :=
  (∀ s : State, s.fetch = s.imem.word s.pcValue) ∧
  (∀ s : State, s.run = .running → s.imem.word s.pcValue = none →
    step s = .fault (.fetchOutOfRange s.pcValue)) ∧
  (∀ s t : State, step s = .next t → t.imem = s.imem) ∧
  (∀ (s : State) (a : Nat), (s.imem.word a).isSome →
    s.readAdmitted a = false ∧ s.writeAdmitted a = false)

/-- R38: `run` is `Running` from start, END makes it `Done`, a fault makes it `Faulted(reason)`; in `Done`
and `Faulted` there is no further step; only `Done` is final. -/
def Obligations.RunStatusRules : Prop :=
  State.reset.run = .running ∧
  (∀ s : State, ∃ t, exec .endFw s = .next t ∧ t.run = .done) ∧
  (∀ (s : State) (f : Fault), step s = .fault f →
    s.after = some { s with run := .faulted f }) ∧
  (∀ s : State, s.run ≠ .running → step s = .refused .notRunning ∧ s.after = none) ∧
  (∀ s : State, s.final = true ↔ s.run = .done)

/-- R25: every instruction other than a taken branch, JMP, CALL, RET and END ends with `pc <- pc + 4`; at
0xFFFC the advance does not wrap, and the next fetch faults, at the address 0x10000 (how the model holds it:
notes/assumptions/10.md). -/
def Obligations.SequentialAdvance : Prop :=
  (∀ (i : Instr) (s t : State),
    i.op ∉ [.call, .ret, .jmp, .endFw, .brz, .brnz, .brc, .brnc, .bre, .brne] →
    exec i s = .next t → Advanced s t) ∧
  (∀ (n : Addr) (s t : State),
    (s.flagZ = false → exec (.brz n) s = .next t → Advanced s t) ∧
    (s.flagZ = true → exec (.brnz n) s = .next t → Advanced s t) ∧
    (s.flagC = false → exec (.brc n) s = .next t → Advanced s t) ∧
    (s.flagC = true → exec (.brnc n) s = .next t → Advanced s t) ∧
    (s.flagE = false → exec (.bre n) s = .next t → Advanced s t) ∧
    (s.flagE = true → exec (.brne n) s = .next t → Advanced s t)) ∧
  (∀ (s t : State), s.pc = 0xFFFC → step s = .next t → t.run = .running → Advanced s t →
    step t = .fault (.fetchOutOfRange 0x10000))

/-- The invariant of Safety.lean (R25, R26, R32, R37, R50, R52) is kept by every step, from every state. -/
def Obligations.InvariantKeptByStep : Prop :=
  ∀ s t : State, s.Inv → step s = .next t → t.Inv

/-- The invariant holds at reset; the pc it has there, `START_PC` 0x8000, is the model's choice
(notes/assumptions/3.md). -/
def Obligations.InvariantHoldsAtReset : Prop := State.reset.Inv

/-- R40, R330: what reset leaves, of what the spec gives: RAR empty, STATUS[DONE] 0, `run` Running, and the pc
at `START_PC`, a multiple of 4 (its value 0x8000 is the model's choice, notes/assumptions/3.md). -/
def Obligations.ResetLeaves : Prop :=
  State.reset.rar = [] ∧ State.reset.statusDone = false ∧ State.reset.run = .running ∧
  State.reset.pc = Config.startPc ∧ Config.startPc.toNat % 4 = 0 ∧ State.reset.pcCarry = false

/-- R8, R330: the platform's parameters are fixed for the run. -/
def Obligations.PlatformFixedDuringRun : Prop :=
  ∀ s t : State, step s = .next t → SamePlatform s t

/-- No instruction is refused, in any state: each completes or ends in a fault of R301. -/
def Obligations.ExecNeverRefuses : Prop :=
  ∀ (i : Instr) (s : State) (r : Refusal), exec i s ≠ .refused r

/-- R301, column "by": a fault of each reason is raised in execution by the instructions named there only,
and MisalignedTarget by RET too (R271, notes/assumptions/12.md). -/
def Obligations.FaultReasonsByInstruction : Prop :=
  ∀ (i : Instr) (s : State) (f : Fault), exec i s = .fault f →
    match f with
    | .fetchOutOfRange _ => i.op = .call
    | .illegalInstruction _ _ => i.op ∈ [.ldk, .stk, .kbo, .tmacIs]
    | .registerIndexOutOfRange _ => i.op ∈ [.hash, .tmacIt, .scb]
    | .zeroModulus _ => i.op ∈ [.addp, .subp, .mulp, .redp]
    | .addressOutOfRange _ _ => i.op ∈ [.ldr, .str, .ld, .st]
    | .misalignedAccess _ _ => i.op ∈ [.ldr, .str, .ld, .st]
    | .accessNotAdmitted _ _ => i.op ∈ [.ldr, .str, .ld, .st]
    | .misalignedTarget _ _ =>
      i.op ∈ [.call, .ret, .jmp, .brz, .brnz, .brc, .brnc, .bre, .brne]
    | .rarOverflow _ => i.op = .call
    | .rarUnderflow _ => i.op = .ret

/-! ### Which instructions touch which state -/

/-- R28: Z is written by 13 instructions only: 1 when all 256 bits of the value written to op1 are 0, or
when the 32-bit difference of CMP and CMPI is 0, and 0 otherwise. -/
def Obligations.ZeroFlagRule : Prop :=
  (∀ (i : Instr) (s t : State), exec i s = .next t →
    match i with
    | .add d _ _ | .sub d _ _ | .and d _ _ | .or d _ _ | .xor d _ _ | .not d _
    | .addi d _ _ | .subi d _ _ | .andi d _ _ | .ori d _ _ | .xori d _ _ =>
      (t.flagZ = true ↔ t.reg d = 0)
    | .cmp a b =>
      (t.flagZ = true ↔ (s.reg a).toNat % 2 ^ 32 = (s.reg b).toNat % 2 ^ 32)
    | .cmpi a imm => (t.flagZ = true ↔ (s.reg a).toNat % 2 ^ 32 = imm.toNat)
    | _ => t.flagZ = s.flagZ)

/-- R29: C is written by LSL and ROL with bit 255 of op2, by LSR and ROR with bit 0 of op2, and by no other
instruction. -/
def Obligations.CarryFlagRule : Prop :=
  ∀ (i : Instr) (s t : State), exec i s = .next t →
    match i with
    | .lsl _ a | .rol _ a => t.flagC = (s.reg a).getLsbD 255
    | .lsr _ a | .ror _ a => t.flagC = (s.reg a).getLsbD 0
    | _ => t.flagC = s.flagC

/-- R30: E takes the error bit that the key bus answers to the request of LDK, STK or KBO, 0 included (the
spec's decision D15, notes/assumptions/16.md), and no other instruction changes it. -/
def Obligations.ErrorFlagRule : Prop :=
  ∀ (i : Instr) (s t : State), exec i s = .next t →
    match i with
    | .ldk _ _ _ => ∃ ty slot off err data,
        (err, data) = Config.kbusRead s.kbusLog ty slot off ∧
        t.kbusLog = s.kbusLog ++ [.read ty slot off err data] ∧ t.flagE = err
    | .stk _ _ _ => ∃ key ty slot off err, err = Config.kbusWrite s.kbusLog key ty slot off ∧
        t.kbusLog = s.kbusLog ++ [.write key ty slot off err] ∧ t.flagE = err
    | .kbo _ _ => ∃ ty slot op err, err = Config.kbusOp s.kbusLog ty slot op ∧
        t.kbusLog = s.kbusLog ++ [.op ty slot op err] ∧ t.flagE = err
    | _ => t.flagE = s.flagE

/-- R51: only STR and ST change the data memory, and of all instructions only LDR, LD, STR and ST depend on
it: any other one does the same over any other memory. -/
def Obligations.OnlyLoadsAndStoresReachMemory : Prop :=
  (∀ (i : Instr) (s t : State), i.op ∉ [.str, .st] → exec i s = .next t → t.mem = s.mem) ∧
  (∀ (i : Instr) (s : State) (m : Memory), i.op ∉ [.ldr, .ld, .str, .st] →
    (∀ t, exec i s = .next t → exec i (s.setMem m) = .next (t.setMem m)) ∧
    (∀ f, exec i s = .fault f → exec i (s.setMem m) = .fault f))

/-- R32: only CALL and RET read or write RAR. -/
def Obligations.OnlyCallAndRetTouchRar : Prop :=
  ∀ (i : Instr) (s : State) (l : List Addr), i.op ∉ [.call, .ret] →
    (∀ t, exec i s = .next t → t.rar = s.rar ∧ exec i (s.setRar l) = .next (t.setRar l)) ∧
    (∀ f, exec i s = .fault f → exec i (s.setRar l) = .fault f)

/-- R35: the SHA state is read and written by no other instruction than HASH_IT and HASH. -/
def Obligations.OnlyHashInstructionsTouchSha : Prop :=
  ∀ (i : Instr) (s : State) (v : BitVec 512), i.op ∉ [.hash, .hashIt] →
    (∀ t, exec i s = .next t → t.sha = s.sha ∧ exec i (s.setSha v) = .next (t.setSha v)) ∧
    (∀ f, exec i s = .fault f → exec i (s.setSha v) = .fault f)

/-- R36, R197: the TMAC state is read and written by no other instruction than TMAC_IT, TMAC_IS, TMAC_UP and
TMAC_RD. -/
def Obligations.OnlyTmacInstructionsTouchTmac : Prop :=
  ∀ (i : Instr) (s : State) (v : TmacState), i.op ∉ [.tmacIt, .tmacIs, .tmacUp, .tmacRd] →
    (∀ t, exec i s = .next t → t.tmac = s.tmac ∧ exec i (s.setTmac v) = .next (t.setTmac v)) ∧
    (∀ f, exec i s = .fault f → exec i (s.setTmac v) = .fault f)

/-- R37: STATUS[DONE] is 0 at start, set to 1 by END, written by nothing else, and read by no
instruction. -/
def Obligations.StatusDoneRule : Prop :=
  State.reset.statusDone = false ∧
  (∀ s t : State, exec .endFw s = .next t → t.statusDone = true) ∧
  (∀ (i : Instr) (s t : State), i ≠ .endFw → exec i s = .next t → SameStatus s t) ∧
  (∀ (i : Instr) (s t : State) (b : Bool), i ≠ .endFw → exec i s = .next t →
    exec i { s with statusDone := b } = .next { t with statusDone := b }) ∧
  (∀ (i : Instr) (s : State) (f : Fault) (b : Bool), exec i s = .fault f →
    exec i { s with statusDone := b } = .fault f)

/-! ### Results of the R and I instructions on registers -/

/-- R111, R112: 32-bit addition and subtraction, modulo 2^32, the upper 224 bits cleared. -/
def Obligations.AddAndSubResults : Prop :=
  ∀ (op1 op2 op3 : RegNo) (s : State),
    (∃ t, exec (.add op1 op2 op3) s = .next t ∧
      (t.reg op1).toNat = ((s.reg op2).toNat % 2 ^ 32 + (s.reg op3).toNat % 2 ^ 32) % 2 ^ 32 ∧
      (t.flagZ = true ↔ t.reg op1 = 0) ∧ t.flagC = s.flagC ∧ t.flagE = s.flagE ∧
      OnlyRegs [op1] s t) ∧
    (∃ t, exec (.sub op1 op2 op3) s = .next t ∧
      ((t.reg op1).toNat : Int) =
        (((s.reg op2).toNat : Int) % 2 ^ 32 - ((s.reg op3).toNat : Int) % 2 ^ 32) % 2 ^ 32 ∧
      (t.flagZ = true ↔ t.reg op1 = 0) ∧ t.flagC = s.flagC ∧ t.flagE = s.flagE ∧
      OnlyRegs [op1] s t)

/-- R221, R222, R88: the immediate forms, with the Immediate zero-extended. -/
def Obligations.AddiAndSubiResults : Prop :=
  ∀ (op1 op2 : RegNo) (imm : Imm) (s : State),
    (∃ t, exec (.addi op1 op2 imm) s = .next t ∧
      (t.reg op1).toNat = ((s.reg op2).toNat % 2 ^ 32 + imm.toNat) % 2 ^ 32 ∧
      (t.flagZ = true ↔ t.reg op1 = 0) ∧ t.flagC = s.flagC ∧ t.flagE = s.flagE ∧
      OnlyRegs [op1] s t) ∧
    (∃ t, exec (.subi op1 op2 imm) s = .next t ∧
      ((t.reg op1).toNat : Int) =
        (((s.reg op2).toNat : Int) % 2 ^ 32 - (imm.toNat : Int)) % 2 ^ 32 ∧
      (t.flagZ = true ↔ t.reg op1 = 0) ∧ t.flagC = s.flagC ∧ t.flagE = s.flagE ∧
      OnlyRegs [op1] s t)

/-- R113, R223: the comparisons write Z and no register; only the low 32 bits of op2 and op3 count. -/
def Obligations.CompareResults : Prop :=
  ∀ (op2 op3 : RegNo) (imm : Imm) (s : State),
    (∃ t, exec (.cmp op2 op3) s = .next t ∧
      (t.flagZ = true ↔ (s.reg op2).toNat % 2 ^ 32 = (s.reg op3).toNat % 2 ^ 32) ∧
      t.flagC = s.flagC ∧ t.flagE = s.flagE ∧ OnlyRegs [] s t) ∧
    (∃ t, exec (.cmpi op2 imm) s = .next t ∧
      (t.flagZ = true ↔ (s.reg op2).toNat % 2 ^ 32 = imm.toNat) ∧
      t.flagC = s.flagC ∧ t.flagE = s.flagE ∧ OnlyRegs [] s t)

/-- R115 to R118: AND, OR, XOR and NOT on each of the 256 bits. -/
def Obligations.LogicResults : Prop :=
  ∀ (op1 op2 op3 : RegNo) (s : State),
    (∃ t, exec (.and op1 op2 op3) s = .next t ∧
      (∀ k < 256, (t.reg op1).getLsbD k = ((s.reg op2).getLsbD k && (s.reg op3).getLsbD k)) ∧
      (t.flagZ = true ↔ t.reg op1 = 0) ∧ t.flagC = s.flagC ∧ t.flagE = s.flagE ∧
      OnlyRegs [op1] s t) ∧
    (∃ t, exec (.or op1 op2 op3) s = .next t ∧
      (∀ k < 256, (t.reg op1).getLsbD k = ((s.reg op2).getLsbD k || (s.reg op3).getLsbD k)) ∧
      (t.flagZ = true ↔ t.reg op1 = 0) ∧ t.flagC = s.flagC ∧ t.flagE = s.flagE ∧
      OnlyRegs [op1] s t) ∧
    (∃ t, exec (.xor op1 op2 op3) s = .next t ∧
      (∀ k < 256, (t.reg op1).getLsbD k = Bool.xor ((s.reg op2).getLsbD k) ((s.reg op3).getLsbD k)) ∧
      (t.flagZ = true ↔ t.reg op1 = 0) ∧ t.flagC = s.flagC ∧ t.flagE = s.flagE ∧
      OnlyRegs [op1] s t) ∧
    (∃ t, exec (.not op1 op2) s = .next t ∧
      (∀ k < 256, (t.reg op1).getLsbD k = !(s.reg op2).getLsbD k) ∧
      (t.flagZ = true ↔ t.reg op1 = 0) ∧ t.flagC = s.flagC ∧ t.flagE = s.flagE ∧
      OnlyRegs [op1] s t)

/-- R119, R120: SBIT sets and CBIT clears the bit that op3[7:0] names, and writes no flag. -/
def Obligations.BitSetAndClearResults : Prop :=
  ∀ (op1 op2 op3 : RegNo) (s : State),
    (∃ t, exec (.sbit op1 op2 op3) s = .next t ∧
      (∀ k < 256, (t.reg op1).getLsbD k =
        if k = (s.reg op3).toNat % 256 then true else (s.reg op2).getLsbD k) ∧
      SameFlags s t ∧ OnlyRegs [op1] s t) ∧
    (∃ t, exec (.cbit op1 op2 op3) s = .next t ∧
      (∀ k < 256, (t.reg op1).getLsbD k =
        if k = (s.reg op3).toNat % 256 then false else (s.reg op2).getLsbD k) ∧
      SameFlags s t ∧ OnlyRegs [op1] s t)

/-- R224 to R227: the immediate logic instructions change bits 11..0 and pass bits 255..12 through; Z looks
at all 256 bits. -/
def Obligations.ImmediateLogicResults : Prop :=
  ∀ (op1 op2 : RegNo) (imm : Imm) (s : State),
    (∃ t, exec (.andi op1 op2 imm) s = .next t ∧
      (∀ k < 256, (t.reg op1).getLsbD k =
        if k < 12 then ((s.reg op2).getLsbD k && imm.getLsbD k) else (s.reg op2).getLsbD k) ∧
      (t.flagZ = true ↔ t.reg op1 = 0) ∧ t.flagC = s.flagC ∧ t.flagE = s.flagE ∧
      OnlyRegs [op1] s t) ∧
    (∃ t, exec (.ori op1 op2 imm) s = .next t ∧
      (∀ k < 256, (t.reg op1).getLsbD k =
        if k < 12 then ((s.reg op2).getLsbD k || imm.getLsbD k) else (s.reg op2).getLsbD k) ∧
      (t.flagZ = true ↔ t.reg op1 = 0) ∧ t.flagC = s.flagC ∧ t.flagE = s.flagE ∧
      OnlyRegs [op1] s t) ∧
    (∃ t, exec (.xori op1 op2 imm) s = .next t ∧
      (∀ k < 256, (t.reg op1).getLsbD k =
        if k < 12 then Bool.xor ((s.reg op2).getLsbD k) (imm.getLsbD k)
        else (s.reg op2).getLsbD k) ∧
      (t.flagZ = true ↔ t.reg op1 = 0) ∧ t.flagC = s.flagC ∧ t.flagE = s.flagE ∧
      OnlyRegs [op1] s t)

/-- R131 to R134: the one-bit shifts and rotations as arithmetic on 256-bit numbers, with C the bit that
leaves the register. -/
def Obligations.OneBitShiftResults : Prop :=
  ∀ (op1 op2 : RegNo) (s : State),
    (∃ t, exec (.lsl op1 op2) s = .next t ∧
      (t.reg op1).toNat = (s.reg op2).toNat * 2 % 2 ^ 256 ∧
      t.flagC = (s.reg op2).getLsbD 255 ∧ t.flagZ = s.flagZ ∧ t.flagE = s.flagE ∧
      OnlyRegs [op1] s t) ∧
    (∃ t, exec (.lsr op1 op2) s = .next t ∧
      (t.reg op1).toNat = (s.reg op2).toNat / 2 ∧
      t.flagC = (s.reg op2).getLsbD 0 ∧ t.flagZ = s.flagZ ∧ t.flagE = s.flagE ∧
      OnlyRegs [op1] s t) ∧
    (∃ t, exec (.rol op1 op2) s = .next t ∧
      (t.reg op1).toNat = (s.reg op2).toNat * 2 % 2 ^ 256 + (s.reg op2).toNat / 2 ^ 255 ∧
      t.flagC = (s.reg op2).getLsbD 255 ∧ t.flagZ = s.flagZ ∧ t.flagE = s.flagE ∧
      OnlyRegs [op1] s t) ∧
    (∃ t, exec (.ror op1 op2) s = .next t ∧
      (t.reg op1).toNat = (s.reg op2).toNat / 2 + (s.reg op2).toNat % 2 * 2 ^ 255 ∧
      t.flagC = (s.reg op2).getLsbD 0 ∧ t.flagZ = s.flagZ ∧ t.flagE = s.flagE ∧
      OnlyRegs [op1] s t)

/-- R135 to R138: the byte rotations and the byte shifts with shift-in as arithmetic; no flag. -/
def Obligations.ByteRotateResults : Prop :=
  ∀ (op1 op2 op3 : RegNo) (s : State),
    (∃ t, exec (.rol8 op1 op2) s = .next t ∧
      (t.reg op1).toNat = (s.reg op2).toNat * 256 % 2 ^ 256 + (s.reg op2).toNat / 2 ^ 248 ∧
      SameFlags s t ∧ OnlyRegs [op1] s t) ∧
    (∃ t, exec (.ror8 op1 op2) s = .next t ∧
      (t.reg op1).toNat = (s.reg op2).toNat / 256 + (s.reg op2).toNat % 256 * 2 ^ 248 ∧
      SameFlags s t ∧ OnlyRegs [op1] s t) ∧
    (∃ t, exec (.rolin op1 op2 op3) s = .next t ∧
      (t.reg op1).toNat = (s.reg op2).toNat * 256 % 2 ^ 256 + (s.reg op3).toNat / 2 ^ 248 ∧
      SameFlags s t ∧ OnlyRegs [op1] s t) ∧
    (∃ t, exec (.rorin op1 op2 op3) s = .next t ∧
      (t.reg op1).toNat = (s.reg op2).toNat / 256 + (s.reg op3).toNat % 256 * 2 ^ 248 ∧
      SameFlags s t ∧ OnlyRegs [op1] s t)

/-- R139: SWE sends byte `k` to byte `31 - k`, and a second SWE restores the value. -/
def Obligations.ByteSwapResult : Prop :=
  ∀ (op1 op2 : RegNo) (s : State),
    ∃ t, exec (.swe op1 op2) s = .next t ∧
      (∀ k < 32, (t.reg op1).extractLsb' (8 * (31 - k)) 8 = (s.reg op2).extractLsb' (8 * k) 8) ∧
      SameFlags s t ∧ OnlyRegs [op1] s t ∧
      ∃ u, exec (.swe op1 op1) t = .next u ∧ u.reg op1 = s.reg op2

/-- R172, R240: MOV copies all 256 bits, MOVI writes the Immediate zero-extended; neither writes a flag. -/
def Obligations.MoveResults : Prop :=
  ∀ (op1 op2 : RegNo) (imm : Imm) (s : State),
    (∃ t, exec (.mov op1 op2) s = .next t ∧ t.reg op1 = s.reg op2 ∧ SameFlags s t ∧
      OnlyRegs [op1] s t) ∧
    (∃ t, exec (.movi op1 imm) s = .next t ∧ (t.reg op1).toNat = imm.toNat ∧ SameFlags s t ∧
      OnlyRegs [op1] s t)

/-- R173, R174: the conditional swaps exchange op1 and op2 when the flag is 1 and otherwise change no
register; they write no flag. -/
def Obligations.ConditionalSwapResults : Prop :=
  ∀ (op1 op2 : RegNo) (s : State),
    (∃ t, exec (.cswap op1 op2) s = .next t ∧
      (s.flagC = true → t.reg op1 = s.reg op2 ∧ t.reg op2 = s.reg op1) ∧
      (s.flagC = false → t.regs = s.regs) ∧ SameFlags s t ∧ OnlyRegs [op1, op2] s t) ∧
    (∃ t, exec (.zswap op1 op2) s = .next t ∧
      (s.flagZ = true → t.reg op1 = s.reg op2 ∧ t.reg op2 = s.reg op1) ∧
      (s.flagZ = false → t.regs = s.regs) ∧ SameFlags s t ∧ OnlyRegs [op1, op2] s t)

/-! ### Modular arithmetic -/

/-- R150 to R152: MUL25519 and MUL256 give the residue of the exact product, below the prime. -/
def Obligations.FixedModulusProducts : Prop :=
  ∀ (op1 op2 op3 : RegNo) (s : State),
    (∃ t, exec (.mul25519 op1 op2 op3) s = .next t ∧
      (t.reg op1).toNat = (s.reg op2).toNat * (s.reg op3).toNat %
        0x7FFFFFFFFFFFFFFFFFFFFFFFFFFFFFFFFFFFFFFFFFFFFFFFFFFFFFFFFFFFFFED ∧
      SameFlags s t ∧ OnlyRegs [op1] s t) ∧
    (∃ t, exec (.mul256 op1 op2 op3) s = .next t ∧
      (t.reg op1).toNat = (s.reg op2).toNat * (s.reg op3).toNat %
        0xFFFFFFFF00000001000000000000000000000000FFFFFFFFFFFFFFFFFFFFFFFF ∧
      SameFlags s t ∧ OnlyRegs [op1] s t)

/-- R150, R153 to R156: with R31 not 0, the generic modular instructions give the least non-negative residue
modulo R31 of the exact sum, difference, product, and of the 512-bit value `op2 || op3`: a number below
the modulus that differs from the exact one by a multiple of the modulus. -/
def Obligations.GenericModularResults : Prop :=
  ∀ (op1 op2 op3 : RegNo) (s : State), s.reg 31 ≠ 0 →
    (∃ t, exec (.addp op1 op2 op3) s = .next t ∧ (t.reg op1).toNat < (s.reg 31).toNat ∧
      ((s.reg 31).toNat : Int) ∣
        ((s.reg op2).toNat + (s.reg op3).toNat : Int) - (t.reg op1).toNat ∧
      SameFlags s t ∧ OnlyRegs [op1] s t) ∧
    (∃ t, exec (.subp op1 op2 op3) s = .next t ∧ (t.reg op1).toNat < (s.reg 31).toNat ∧
      ((s.reg 31).toNat : Int) ∣
        ((s.reg op2).toNat - (s.reg op3).toNat : Int) - (t.reg op1).toNat ∧
      SameFlags s t ∧ OnlyRegs [op1] s t) ∧
    (∃ t, exec (.mulp op1 op2 op3) s = .next t ∧ (t.reg op1).toNat < (s.reg 31).toNat ∧
      ((s.reg 31).toNat : Int) ∣
        ((s.reg op2).toNat * (s.reg op3).toNat : Int) - (t.reg op1).toNat ∧
      SameFlags s t ∧ OnlyRegs [op1] s t) ∧
    (∃ t, exec (.redp op1 op2 op3) s = .next t ∧ (t.reg op1).toNat < (s.reg 31).toNat ∧
      ((s.reg 31).toNat : Int) ∣
        ((s.reg op2).toNat * 2 ^ 256 + (s.reg op3).toNat : Int) - (t.reg op1).toNat ∧
      SameFlags s t ∧ OnlyRegs [op1] s t)

/-- R157: with R31 = 0 the four generic modular instructions raise `Fault(ZeroModulus)` and write nothing;
MUL25519 and MUL256 have fixed moduli and cannot raise it. -/
def Obligations.ZeroModulusFaults : Prop :=
  (∀ (op1 op2 op3 : RegNo) (s : State), s.reg 31 = 0 →
    exec (.addp op1 op2 op3) s = .fault (.zeroModulus s.pcValue) ∧
    exec (.subp op1 op2 op3) s = .fault (.zeroModulus s.pcValue) ∧
    exec (.mulp op1 op2 op3) s = .fault (.zeroModulus s.pcValue) ∧
    exec (.redp op1 op2 op3) s = .fault (.zeroModulus s.pcValue)) ∧
  (∀ (op1 op2 op3 : RegNo) (s : State) (f : Fault),
    exec (.mul25519 op1 op2 op3) s ≠ .fault f ∧ exec (.mul256 op1 op2 op3) s ≠ .fault f)

/-! ### Loads and stores -/

/-- R57, R170, R260: where the eight words may be read, LDR and LD put word `ea + 4k` into bits
`32k+31 .. 32k` of op1 and change nothing else. -/
def Obligations.LoadResults : Prop :=
  ∀ (op1 op2 : RegNo) (addr : Addr) (s : State),
    (s.CanRead (s.reg op2).toNat → ∃ t, exec (.ldr op1 op2) s = .next t ∧
      (∀ k < 8, (t.reg op1).extractLsb' (32 * k) 32 =
        s.mem.getWord s.byteOrder ((s.reg op2).toNat + 4 * k)) ∧
      SameFlags s t ∧ OnlyRegs [op1] s t) ∧
    (s.CanRead addr.toNat → ∃ t, exec (.ld op1 addr) s = .next t ∧
      (∀ k < 8, (t.reg op1).extractLsb' (32 * k) 32 =
        s.mem.getWord s.byteOrder (addr.toNat + 4 * k)) ∧
      SameFlags s t ∧ OnlyRegs [op1] s t)

/-- R58, R171, R261: where the eight words may be written, STR and ST put bits `32k+31 .. 32k` of op1 into
word `ea + 4k`; every byte outside the 32 bytes at `ea` and every register is unchanged. -/
def Obligations.StoreResults : Prop :=
  ∀ (op1 op2 : RegNo) (addr : Addr) (s : State),
    (s.CanWrite (s.reg op2).toNat → ∃ t, exec (.str op1 op2) s = .next t ∧
      (∀ k < 8, t.mem.getWord t.byteOrder ((s.reg op2).toNat + 4 * k) =
        (s.reg op1).extractLsb' (32 * k) 32) ∧
      SameMemOutside (s.reg op2).toNat 32 s t ∧ SameRegsBut [] s t ∧ SameFlags s t ∧
      SameRest s t ∧ Advanced s t) ∧
    (s.CanWrite addr.toNat → ∃ t, exec (.st op1 addr) s = .next t ∧
      (∀ k < 8, t.mem.getWord t.byteOrder (addr.toNat + 4 * k) =
        (s.reg op1).extractLsb' (32 * k) 32) ∧
      SameMemOutside addr.toNat 32 s t ∧ SameRegsBut [] s t ∧ SameFlags s t ∧
      SameRest s t ∧ Advanced s t)

/-- R55 to R58, R61, R303: of the eight words in ascending order, the first that fails a check decides the
fault: out of range, else misaligned, else not admitted. LDR and STR use the whole 256-bit register as the
address, without truncation. That the fault records the failing word's address is the model's reading
(notes/assumptions/13.md). -/
def Obligations.AccessFaultOrder : Prop :=
  ∀ (op1 op2 : RegNo) (addr : Addr) (s : State) (i : Instr) (ea : Nat) (admitted : Nat → Bool),
    (i = .ldr op1 op2 ∧ ea = (s.reg op2).toNat ∧ admitted = s.readAdmitted ∨
      i = .ld op1 addr ∧ ea = addr.toNat ∧ admitted = s.readAdmitted ∨
      i = .str op1 op2 ∧ ea = (s.reg op2).toNat ∧ admitted = s.writeAdmitted ∨
      i = .st op1 addr ∧ ea = addr.toNat ∧ admitted = s.writeAdmitted) →
    ∀ k < 8,
      (∀ j < k, ea + 4 * j ≤ 0xFFFC ∧ (ea + 4 * j) % 4 = 0 ∧ admitted (ea + 4 * j) = true) →
      (0xFFFC < ea + 4 * k → exec i s = .fault (.addressOutOfRange s.pcValue (ea + 4 * k))) ∧
      (ea + 4 * k ≤ 0xFFFC → (ea + 4 * k) % 4 ≠ 0 →
        exec i s = .fault (.misalignedAccess s.pcValue (ea + 4 * k))) ∧
      (ea + 4 * k ≤ 0xFFFC → (ea + 4 * k) % 4 = 0 → admitted (ea + 4 * k) = false →
        exec i s = .fault (.accessNotAdmitted s.pcValue (ea + 4 * k)))

/-- R52, R67: a load or a store that completes touches no word that holds program text. -/
def Obligations.ProgramTextIsOutOfReach : Prop :=
  ∀ (op1 op2 : RegNo) (addr : Addr) (s t : State) (k : Nat), k < 8 →
    ((exec (.ld op1 addr) s = .next t ∨ exec (.st op1 addr) s = .next t) →
      s.imem.word (addr.toNat + 4 * k) = none) ∧
    ((exec (.ldr op1 op2) s = .next t ∨ exec (.str op1 op2) s = .next t) →
      s.imem.word ((s.reg op2).toNat + 4 * k) = none)

/-- R65: a load sees the last store to the same words: after `ST op1,addr`, `LD d,addr` gives op1's value,
and so does `LDR` through a register that holds the address. -/
def Obligations.LoadSeesLastStore : Prop :=
  ∀ (op1 d r : RegNo) (addr : Addr) (s t : State), exec (.st op1 addr) s = .next t →
    s.CanRead addr.toNat →
    (∃ u, exec (.ld d addr) t = .next u ∧ u.reg d = s.reg op1) ∧
    ((s.reg r).toNat = addr.toNat → ∃ u, exec (.ldr d r) t = .next u ∧ u.reg d = s.reg op1)

/-! ### The units -/

/-- R35, R191, R194, R241: HASH_IT loads the SHA-512 initial value; HASH compresses the block of four registers
into the SHA state and copies the new state to op1 (low half) and op1+1 (high half). -/
def Obligations.HashResults : Prop :=
  (∀ s : State, ∃ t, exec .hashIt s = .next t ∧ t.sha = sha512Init ∧ t.tmac = s.tmac ∧
    t.regs = s.regs ∧ SameFlags s t ∧ SameMem s t ∧ t.rar = s.rar ∧ SameOutside s t ∧
    SameStatus s t ∧ SamePlatform s t ∧ Advanced s t) ∧
  (∀ (op1 op2 : RegNo) (s : State), op1.toNat ≤ 30 → op2.toNat ≤ 28 →
    ∃ t, exec (.hash op1 op2) s = .next t ∧
      t.sha = sha512Compress s.sha
        (s.reg (op2 + 3) ++ s.reg (op2 + 2) ++ s.reg (op2 + 1) ++ s.reg op2) ∧
      t.reg op1 = t.sha.extractLsb' 0 256 ∧ t.reg (op1 + 1) = t.sha.extractLsb' 256 256 ∧
      t.tmac = s.tmac ∧ SameRegsBut [op1, op1 + 1] s t ∧ SameFlags s t ∧ SameMem s t ∧
      t.rar = s.rar ∧ SameOutside s t ∧ SameStatus s t ∧ SamePlatform s t ∧ Advanced s t)

/-- R194, the rule's example: HASH_IT and HASH over the padded block of "abc" give SHA-512("abc"). -/
def Obligations.HashOfAbc : Prop :=
  ∀ s : State, s.reg 4 = 0x18 → s.reg 5 = 0 → s.reg 6 = 0 →
    s.reg 7 = 0x6162638000000000000000000000000000000000000000000000000000000000 →
    ∃ t u, exec .hashIt s = .next t ∧ exec (.hash 1 4) t = .next u ∧
      u.reg 2 = 0xDDAF35A193617ABACC417349AE20413112E6FA4E89A97EA20A9EEEE64B55D39A ∧
      u.reg 1 = 0x2192992A274FC1A836BA3C23A3FEEBBD454D4423643CE80E2A9AC94FA54CA49F

/-- R190: register groups that pass R31 raise `Fault(RegisterIndexOutOfRange)`, all others are legal, and the
four registers form the 1024-bit value with the highest number the most significant. -/
def Obligations.RegisterGroupRules : Prop :=
  ∀ (op1 op2 op3 : RegNo) (s : State),
    (28 < op2.toNat →
      exec (.hash op1 op2) s = .fault (.registerIndexOutOfRange s.pcValue) ∧
      exec (.tmacIt op2) s = .fault (.registerIndexOutOfRange s.pcValue)) ∧
    (30 < op1.toNat →
      exec (.hash op1 op2) s = .fault (.registerIndexOutOfRange s.pcValue) ∧
      exec (.scb op1 op2 op3) s = .fault (.registerIndexOutOfRange s.pcValue)) ∧
    (op2.toNat ≤ 28 →
      (∃ t, exec (.tmacIt op2) s = .next t) ∧
      (op1.toNat ≤ 30 → ∃ t, exec (.hash op1 op2) s = .next t)) ∧
    (op1.toNat ≤ 30 → ∃ t, exec (.scb op1 op2 op3) s = .next t) ∧
    (s.regGroup op2).extractLsb' 0 256 = s.reg op2 ∧
    (s.regGroup op2).extractLsb' 256 256 = s.reg (op2 + 1) ∧
    (s.regGroup op2).extractLsb' 512 256 = s.reg (op2 + 2) ∧
    (s.regGroup op2).extractLsb' 768 256 = s.reg (op2 + 3)

/-- R197 to R200, R242: the TMAC instructions apply the unit's functions to the arguments the rules name; only
TMAC_RD writes a register. The functions have no body (notes/assumptions/9.md). -/
def Obligations.TmacResults : Prop :=
  (∀ (op2 : RegNo) (s : State), op2.toNat ≤ 28 →
    ∃ t, exec (.tmacIt op2) s = .next t ∧
      t.tmac = Config.tmacInit
        (s.reg (op2 + 3) ++ s.reg (op2 + 2) ++ s.reg (op2 + 1) ++ s.reg op2) ∧
      t.sha = s.sha ∧ t.regs = s.regs ∧ SameFlags s t ∧ SameMem s t ∧ t.rar = s.rar ∧
      SameOutside s t ∧ SameStatus s t ∧ SamePlatform s t ∧ Advanced s t) ∧
  (∀ (op2 : RegNo) (imm : Imm) (s : State), imm.toNat < 256 →
    ∃ t, exec (.tmacIs op2 imm) s = .next t ∧
      t.tmac = Config.tmacInitstr s.tmac (s.reg op2) (imm.setWidth 8) ∧
      t.sha = s.sha ∧ t.regs = s.regs ∧ SameFlags s t ∧ SameMem s t ∧ t.rar = s.rar ∧
      SameOutside s t ∧ SameStatus s t ∧ SamePlatform s t ∧ Advanced s t) ∧
  (∀ (op2 : RegNo) (s : State),
    ∃ t, exec (.tmacUp op2) s = .next t ∧
      t.tmac = Config.tmacUpdate s.tmac ((s.reg op2).setWidth 144) ∧
      t.sha = s.sha ∧ t.regs = s.regs ∧ SameFlags s t ∧ SameMem s t ∧ t.rar = s.rar ∧
      SameOutside s t ∧ SameStatus s t ∧ SamePlatform s t ∧ Advanced s t) ∧
  (∀ (op1 : RegNo) (s : State),
    ∃ t, exec (.tmacRd op1) s = .next t ∧ t.reg op1 = Config.tmacResult s.tmac ∧
      t.tmac = Config.tmacAfterRd s.tmac ∧
      t.sha = s.sha ∧ SameRegsBut [op1] s t ∧ SameFlags s t ∧ SameMem s t ∧ t.rar = s.rar ∧
      SameOutside s t ∧ SameStatus s t ∧ SamePlatform s t ∧ Advanced s t)

/-- R198: where the named parts of the TMAC mask lie in the four registers. -/
def Obligations.TmacMaskParts : Prop :=
  ∀ (op2 : RegNo) (s : State),
    (maskShareA (s.regGroup op2)).extractLsb' 0 256 = s.reg op2 ∧
    (maskShareA (s.regGroup op2)).extractLsb' 256 144 = (s.reg (op2 + 1)).extractLsb' 0 144 ∧
    (maskShareB (s.regGroup op2)).extractLsb' 0 112 = (s.reg (op2 + 1)).extractLsb' 144 112 ∧
    (maskShareB (s.regGroup op2)).extractLsb' 112 256 = s.reg (op2 + 2) ∧
    (maskShareB (s.regGroup op2)).extractLsb' 368 32 = (s.reg (op2 + 3)).extractLsb' 0 32 ∧
    maskGuard (s.regGroup op2) = (s.reg (op2 + 3)).extractLsb' 32 4

/-- R205: GRV writes the value of a fresh draw to op1, and the next GRV draws again. The draw is a free value
(notes/assumptions/7.md): nothing is said of what it is. -/
def Obligations.RandomValueResult : Prop :=
  ∀ (op1 : RegNo) (s : State), ∃ t, exec (.grv op1) s = .next t ∧
    t.reg op1 = Config.randomDraw s.draws ∧ t.draws = s.draws + 1 ∧ t.kbusLog = s.kbusLog ∧
    SameRegsBut [op1] s t ∧ SameFlags s t ∧ SameMem s t ∧ t.rar = s.rar ∧ SameUnits s t ∧
    SameStatus s t ∧ SamePlatform s t ∧ Advanced s t

/-- R207, R208: SCB writes the two halves of BLIND(op2, op3, R31), all three read first; no fault for
R31 = 0. BLIND is a function without a body (notes/assumptions/15.md). -/
def Obligations.BlindScalarResult : Prop :=
  ∀ (op1 op2 op3 : RegNo) (s : State), op1.toNat ≤ 30 →
    ∃ t, exec (.scb op1 op2 op3) s = .next t ∧
      t.reg op1 = (Config.blind (s.reg op2) (s.reg op3) (s.reg 31)).extractLsb' 0 256 ∧
      t.reg (op1 + 1) = (Config.blind (s.reg op2) (s.reg op3) (s.reg 31)).extractLsb' 256 256 ∧
      SameFlags s t ∧ OnlyRegs [op1, op1 + 1] s t

/-! ### The key bus -/

/-- R236 to R239: LDK, STK and KBO each issue one request with the arguments the rules name, record it with
its answer, and write the error bit to E; LDK writes the data answered to op1, error or not. The answers are
free values, functions without a body of the history and the request (notes/assumptions/8.md). -/
def Obligations.KeyBusResults : Prop :=
  (∀ (op1 op2 : RegNo) (imm : Imm) (s : State), imm &&& 0x0E0 = 0 →
    ∃ t ty slot off err data, exec (.ldk op1 op2 imm) s = .next t ∧
      (err, data) = Config.kbusRead s.kbusLog ty slot off ∧
      ty.toNat = imm.toNat / 256 ∧ slot.toNat = (s.reg op2).toNat % 256 ∧
      off.toNat = imm.toNat % 32 * 8 ∧
      t.reg op1 = data ∧ t.flagE = err ∧ t.kbusLog = s.kbusLog ++ [.read ty slot off err data] ∧
      t.flagZ = s.flagZ ∧ t.flagC = s.flagC ∧ SameRegsBut [op1] s t ∧ SameMem s t ∧
      t.rar = s.rar ∧ t.draws = s.draws ∧ SameUnits s t ∧ SameStatus s t ∧ SamePlatform s t ∧
      Advanced s t) ∧
  (∀ (op1 op2 : RegNo) (imm : Imm) (s : State), imm &&& 0x0E0 = 0 →
    ∃ t ty slot off err, exec (.stk op1 op2 imm) s = .next t ∧
      err = Config.kbusWrite s.kbusLog (s.reg op1) ty slot off ∧
      ty.toNat = imm.toNat / 256 ∧ slot.toNat = (s.reg op2).toNat % 256 ∧
      off.toNat = imm.toNat % 32 * 8 ∧
      t.flagE = err ∧ t.kbusLog = s.kbusLog ++ [.write (s.reg op1) ty slot off err] ∧
      t.flagZ = s.flagZ ∧ t.flagC = s.flagC ∧ t.regs = s.regs ∧ SameMem s t ∧
      t.rar = s.rar ∧ t.draws = s.draws ∧ SameUnits s t ∧ SameStatus s t ∧ SamePlatform s t ∧
      Advanced s t) ∧
  (∀ (op2 : RegNo) (imm : Imm) (s : State), imm &&& 0x0F0 = 0 →
    ∃ t ty slot op err, exec (.kbo op2 imm) s = .next t ∧
      err = Config.kbusOp s.kbusLog ty slot op ∧
      ty.toNat = imm.toNat / 256 ∧ slot.toNat = (s.reg op2).toNat % 256 ∧
      op.toNat = imm.toNat % 16 ∧
      t.flagE = err ∧ t.kbusLog = s.kbusLog ++ [.op ty slot op err] ∧
      t.flagZ = s.flagZ ∧ t.flagC = s.flagC ∧ t.regs = s.regs ∧ SameMem s t ∧
      t.rar = s.rar ∧ t.draws = s.draws ∧ SameUnits s t ∧ SameStatus s t ∧ SamePlatform s t ∧
      Advanced s t)

/-- R91, R237, R238, R239, R242: a 1 in an Immediate bit that LDK, STK, KBO or TMAC_IS does not name is an
illegal instruction. That the fault records the word at the pc is the model's reading
(notes/assumptions/13.md). -/
def Obligations.UnnamedImmediateBitsFault : Prop :=
  ∀ (op1 op2 : RegNo) (imm : Imm) (s : State) (w : Word), s.fetch = some w →
    (imm &&& 0x0E0 ≠ 0 →
      exec (.ldk op1 op2 imm) s = .fault (.illegalInstruction s.pcValue w) ∧
      exec (.stk op1 op2 imm) s = .fault (.illegalInstruction s.pcValue w)) ∧
    (imm &&& 0x0F0 ≠ 0 → exec (.kbo op2 imm) s = .fault (.illegalInstruction s.pcValue w)) ∧
    (imm &&& 0xF00 ≠ 0 → exec (.tmacIs op2 imm) s = .fault (.illegalInstruction s.pcValue w))

/-! ### Control transfer -/

/-- R272, R275 to R280: a conditional branch goes to its target when the flag has the wanted value and the
target is a multiple of 4, faults when it is not, and goes on when the flag has the other value, whatever
the target. Two clauses rest on inferences the spec marks as its own: the fault of a misaligned target on
decision D12 (R271), and the half of a branch not taken, of which R272 says that "The source gives only the
taken half", on the sequential advance of R25. -/
def Obligations.ConditionalBranchResults : Prop :=
  ∀ (mk : Addr → Instr) (flag : State → Bool) (wanted : Bool),
    (mk, flag, wanted) ∈ [(Instr.brz, State.flagZ, true), (Instr.brnz, State.flagZ, false),
      (Instr.brc, State.flagC, true), (Instr.brnc, State.flagC, false),
      (Instr.bre, State.flagE, true), (Instr.brne, State.flagE, false)] →
    ∀ (newpc : Addr) (s : State),
      (flag s = wanted → newpc.toNat % 4 = 0 → ∃ t, exec (mk newpc) s = .next t ∧
        WentTo newpc t ∧ t.regs = s.regs ∧ SameFlags s t ∧ SameMem s t ∧ SameRest s t) ∧
      (flag s = wanted → newpc.toNat % 4 ≠ 0 →
        exec (mk newpc) s = .fault (.misalignedTarget s.pcValue newpc)) ∧
      (flag s ≠ wanted → ∃ t, exec (mk newpc) s = .next t ∧ SameFlags s t ∧ OnlyRegs [] s t)

/-- R271, R281: JMP goes to its target if it is a multiple of 4 and faults otherwise. -/
def Obligations.JumpResults : Prop :=
  ∀ (newpc : Addr) (s : State),
    (newpc.toNat % 4 = 0 → ∃ t, exec (.jmp newpc) s = .next t ∧ WentTo newpc t ∧
      t.regs = s.regs ∧ SameFlags s t ∧ SameMem s t ∧ SameRest s t) ∧
    (newpc.toNat % 4 ≠ 0 → exec (.jmp newpc) s = .fault (.misalignedTarget s.pcValue newpc))

/-- R8, R33, R271, R273, R303: CALL pushes `pc + 4` and goes to its target; when it faults, and with which
reason, in the order of the checks. Because `RAR_DEPTH` is a positive integer, a CALL on an empty RAR never
overflows it. -/
def Obligations.CallResults : Prop :=
  ∀ (newpc : Addr) (s : State),
    (s.pcValue + 4 ≤ 0xFFFC → newpc.toNat % 4 = 0 → s.rar.length < s.rarDepth.val →
      ∃ t, exec (.call newpc) s = .next t ∧ WentTo newpc t ∧
        t.rar = (s.pc + 4) :: s.rar ∧ t.regs = s.regs ∧ SameFlags s t ∧ SameMem s t ∧
        SameUnits s t ∧ SameOutside s t ∧ SameStatus s t ∧ SamePlatform s t) ∧
    (0xFFFC < s.pcValue + 4 → exec (.call newpc) s = .fault (.fetchOutOfRange s.pcValue)) ∧
    (s.pcValue + 4 ≤ 0xFFFC → newpc.toNat % 4 ≠ 0 →
      exec (.call newpc) s = .fault (.misalignedTarget s.pcValue newpc)) ∧
    (s.pcValue + 4 ≤ 0xFFFC → newpc.toNat % 4 = 0 → s.rar.length = s.rarDepth.val →
      exec (.call newpc) s = .fault (.rarOverflow s.pcValue)) ∧
    (s.pcValue + 4 ≤ 0xFFFC → newpc.toNat % 4 = 0 → s.rar = [] →
      ∃ t, exec (.call newpc) s = .next t ∧ t.rar = [s.pc + 4])

/-- R34, R271, R274: RET takes the first entry off RAR and goes to it; it faults on an empty RAR, and on an
entry that is no multiple of 4. -/
def Obligations.ReturnResults : Prop :=
  ∀ s : State,
    (∀ (ra : Addr) (rest : List Addr), s.rar = ra :: rest → ra.toNat % 4 = 0 →
      ∃ t, exec .ret s = .next t ∧ WentTo ra t ∧ t.rar = rest ∧ t.regs = s.regs ∧ SameFlags s t ∧
        SameMem s t ∧ SameUnits s t ∧ SameOutside s t ∧ SameStatus s t ∧ SamePlatform s t) ∧
    (∀ (ra : Addr) (rest : List Addr), s.rar = ra :: rest → ra.toNat % 4 ≠ 0 →
      exec .ret s = .fault (.misalignedTarget s.pcValue ra)) ∧
    (s.rar = [] → exec .ret s = .fault (.rarUnderflow s.pcValue))

/-- R24, R270, R274: the RET that follows a CALL comes back to the instruction after the CALL, with RAR as it
was, whatever the instructions in between that leave RAR alone did. -/
def Obligations.ReturnComesBackAfterCall : Prop :=
  ∀ (newpc : Addr) (s t u : State), s.PcInv → exec (.call newpc) s = .next t → u.rar = t.rar →
    ∃ v, exec .ret u = .next v ∧ v.pcValue = s.pcValue + 4 ∧ v.rar = s.rar ∧ v.regs = u.regs

/-- R282: END sets STATUS[DONE], makes the run `Done` and changes nothing else; the pc stays. -/
def Obligations.EndResult : Prop :=
  ∀ s : State, ∃ t, exec .endFw s = .next t ∧ t.statusDone = true ∧ t.run = .done ∧
    t.pc = s.pc ∧ t.pcCarry = s.pcCarry ∧ t.regs = s.regs ∧ SameFlags s t ∧ SameMem s t ∧
    t.rar = s.rar ∧ SameUnits s t ∧ SameOutside s t ∧ SamePlatform s t

/-- R283: NOP moves the pc on by 4 and changes nothing else. -/
def Obligations.NopResult : Prop :=
  ∀ s : State, ∃ t, exec .nop s = .next t ∧ t.regs = s.regs ∧ SameFlags s t ∧ OnlyRegs [] s t
end

