-- ==== Sys2Proof/Laws/Memory.lean ====
section
/-! SUPPORT. The laws of the data memory and of the program memory: reading after writing, what a write
leaves alone, and that every operation keeps the canonical form. -/

namespace Sys2Proof.Machine

/-! ### One byte -/

theorem Memory.get_erase_same (m : Memory) (a : Nat) : (m.erase a).get a = unlistedByte := by
  induction m with
  | nil => rfl
  | cons p m ih =>
    obtain ⟨k, v⟩ := p
    by_cases h : k = a
    · simpa [Memory.erase, h] using ih
    · simpa [Memory.erase, h, Memory.get] using ih

theorem Memory.get_erase_other (m : Memory) (a c : Nat) (h : c ≠ a) :
    (m.erase a).get c = m.get c := by
  induction m with
  | nil => rfl
  | cons p m ih =>
    obtain ⟨k, v⟩ := p
    by_cases hk : k = a
    · have ih' : Memory.get (List.filter (fun p => p.1 != a) m) c = Memory.get m c := ih
      have hac : ¬ a = c := fun e => h e.symm
      simp only [Memory.erase, List.filter_cons, hk, bne_self_eq_false, Memory.get, hac, if_false]
      exact ih'
    · have ih' : Memory.get (List.filter (fun p => p.1 != a) m) c = Memory.get m c := ih
      simp [Memory.erase, hk, Memory.get, ih']

/-- The list has no entry at address `a`. -/
def Memory.lacks (m : Memory) (a : Nat) : Prop := ∀ p ∈ m, p.1 ≠ a

theorem Memory.erase_lacks (m : Memory) (a : Nat) : Memory.lacks (m.erase a) a := by
  intro p hp
  simp only [Memory.erase, List.mem_filter] at hp
  simpa using hp.2

theorem Memory.get_insert (m : Memory) (a c : Nat) (b : Byte) (h : Memory.lacks m a) :
    (m.insert a b).get c = if c = a then b else m.get c := by
  induction m with
  | nil => simp [Memory.insert, Memory.get, eq_comm]
  | cons p m ih =>
    obtain ⟨k, v⟩ := p
    have hk : k ≠ a := h (k, v) (by simp)
    have ih' := ih fun q hq => h q (by simp [hq])
    by_cases hlt : a < k
    · by_cases hc : c = a
      · simp [Memory.insert, hlt, Memory.get, hc]
      · have hac : ¬ a = c := fun e => hc e.symm
        simp [Memory.insert, hlt, Memory.get, hc, hac]
    · by_cases hc : c = a
      · simp only [Memory.insert, hlt, Memory.get, if_false]
        rw [ih']; simp [hc, hk]
      · simp only [Memory.insert, hlt, Memory.get, if_false]
        rw [ih']; simp [hc]

/-- Reading after writing one byte, in any memory. -/
theorem Memory.get_set (m : Memory) (a c : Nat) (b : Byte) :
    (m.set a b).get c = if c = a then b else m.get c := by
  unfold Memory.set
  by_cases hb : b = unlistedByte
  · by_cases hc : c = a
    · simp [hb, hc, Memory.get_erase_same]
    · simp [hb, hc, Memory.get_erase_other]
  · rw [if_neg hb, Memory.get_insert _ _ _ _ (Memory.erase_lacks m a)]
    by_cases hc : c = a
    · simp [hc]
    · simp [hc, Memory.get_erase_other]

@[simp] theorem Memory.get_set_same (m : Memory) (a : Nat) (b : Byte) : (m.set a b).get a = b := by
  simp [Memory.get_set]

theorem Memory.get_set_other (m : Memory) (a c : Nat) (b : Byte) (h : c ≠ a) :
    (m.set a b).get c = m.get c := by
  simp [Memory.get_set, h]

/-! ### The canonical form -/

theorem Memory.above_erase (m : Memory) (k a : Nat) (h : Memory.above k m = true) :
    Memory.above k (m.erase a) = true := by
  simp only [Memory.above, List.all_eq_true, Memory.erase, List.mem_filter] at *
  exact fun p hp => h p hp.1

theorem Memory.wf_erase (m : Memory) (a : Nat) (h : m.wf = true) : (m.erase a).wf = true := by
  induction m with
  | nil => rfl
  | cons p m ih =>
    obtain ⟨k, v⟩ := p
    simp only [Memory.wf, Bool.and_eq_true] at h
    obtain ⟨⟨hab, hv⟩, hm⟩ := h
    have herase : Memory.erase ((k, v) :: m) a =
        if k = a then Memory.erase m a else (k, v) :: Memory.erase m a := by
      by_cases hk : k = a <;> simp [Memory.erase, hk]
    rw [herase]
    split
    · exact ih hm
    · simp only [Memory.wf, Bool.and_eq_true]
      exact ⟨⟨Memory.above_erase m k a hab, hv⟩, ih hm⟩

theorem Memory.above_insert (m : Memory) (k a : Nat) (b : Byte) (h : Memory.above k m = true)
    (hk : k < a) : Memory.above k (m.insert a b) = true := by
  induction m with
  | nil => simpa [Memory.insert, Memory.above] using hk
  | cons p m ih =>
    obtain ⟨j, v⟩ := p
    simp only [Memory.above, List.all_cons, Bool.and_eq_true, decide_eq_true_eq] at h ih
    unfold Memory.insert
    split
    · simp only [Memory.above, List.all_cons, Bool.and_eq_true, decide_eq_true_eq]
      exact ⟨hk, h.1, h.2⟩
    · simp only [Memory.above, List.all_cons, Bool.and_eq_true, decide_eq_true_eq]
      exact ⟨h.1, ih h.2⟩

theorem Memory.above_mono (m : Memory) (j k : Nat) (h : Memory.above k m = true) (hjk : j < k) :
    Memory.above j m = true := by
  simp only [Memory.above, List.all_eq_true, decide_eq_true_eq] at *
  exact fun p hp => Nat.lt_trans hjk (h p hp)

theorem Memory.wf_insert (m : Memory) (a : Nat) (b : Byte) (h : m.wf = true)
    (hl : Memory.lacks m a) (hb : b ≠ unlistedByte) : (m.insert a b).wf = true := by
  induction m with
  | nil => simpa [Memory.insert, Memory.wf, Memory.above] using hb
  | cons p m ih =>
    obtain ⟨k, v⟩ := p
    simp only [Memory.wf, Bool.and_eq_true] at h
    obtain ⟨⟨hab, hv⟩, hm⟩ := h
    have hne : k ≠ a := hl (k, v) (by simp)
    unfold Memory.insert
    split
    case isTrue hlt =>
      have hbig : Memory.above a ((k, v) :: m) = true := by
        simp only [Memory.above, List.all_cons, Bool.and_eq_true, decide_eq_true_eq]
        exact ⟨hlt, Memory.above_mono m a k hab hlt⟩
      simp only [Memory.wf, Bool.and_eq_true, bne_iff_ne, ne_eq]
      exact ⟨⟨hbig, hb⟩, ⟨hab, by simpa using hv⟩, hm⟩
    case isFalse hge =>
      have hlt : k < a := by omega
      simp only [Memory.wf, Bool.and_eq_true]
      exact ⟨⟨Memory.above_insert m k a b hab hlt, hv⟩, ih hm fun q hq => hl q (by simp [hq])⟩

/-- Writing a byte keeps the canonical form. -/
theorem Memory.wf_set (m : Memory) (a : Nat) (b : Byte) (h : m.wf = true) :
    (m.set a b).wf = true := by
  unfold Memory.set
  split
  · exact Memory.wf_erase m a h
  case isFalse hb => exact Memory.wf_insert _ a b (Memory.wf_erase m a h) (Memory.erase_lacks m a) hb

/-- Every address of the list is below `n`. -/
def Memory.below (n : Nat) (m : Memory) : Prop := ∀ p ∈ m, p.1 < n

theorem Memory.mem_insert (m : Memory) (a : Nat) (b : Byte) (p : Host.Cell)
    (h : p ∈ m.insert a b) : p = (a, b) ∨ p ∈ m := by
  induction m with
  | nil => simpa [Memory.insert] using h
  | cons q m ih =>
    obtain ⟨k, v⟩ := q
    unfold Memory.insert at h
    split at h
    · simpa using h
    · rcases List.mem_cons.mp h with hq | hm
      · exact .inr (by simp [hq])
      · rcases ih hm with he | hi
        · exact .inl he
        · exact .inr (by simp [hi])

/-- Writing a byte below `n` keeps every address below `n`. -/
theorem Memory.below_set (m : Memory) (n a : Nat) (b : Byte) (h : Memory.below n m) (ha : a < n) :
    Memory.below n (m.set a b) := by
  have herase : Memory.below n (m.erase a) := fun p hp => h p (List.mem_filter.mp hp).1
  unfold Memory.set
  split
  · exact herase
  · intro p hp
    rcases Memory.mem_insert _ a b p hp with he | hm
    · simpa [he] using ha
    · exact herase p hm

/-! ### One word -/

/-- Writing a word changes its own four bytes and no other. -/
theorem Memory.get_setWord_other (o : ByteOrder) (m : Memory) (a c : Nat) (w : Word)
    (h : c < a ∨ a + 4 ≤ c) : (m.setWord o a w).get c = m.get c := by
  unfold Memory.setWord
  rw [Memory.get_set_other _ _ _ _ (by omega), Memory.get_set_other _ _ _ _ (by omega),
    Memory.get_set_other _ _ _ _ (by omega), Memory.get_set_other _ _ _ _ (by omega)]

theorem Memory.wf_setWord (o : ByteOrder) (m : Memory) (a : Nat) (w : Word) (h : m.wf = true) :
    (m.setWord o a w).wf = true :=
  Memory.wf_set _ _ _ (Memory.wf_set _ _ _ (Memory.wf_set _ _ _ (Memory.wf_set _ _ _ h)))

theorem Memory.below_setWord (o : ByteOrder) (m : Memory) (n a : Nat) (w : Word)
    (h : Memory.below n m) (ha : a + 4 ≤ n) : Memory.below n (m.setWord o a w) :=
  Memory.below_set _ _ _ _ (Memory.below_set _ _ _ _ (Memory.below_set _ _ _ _
    (Memory.below_set _ _ _ _ h (by omega)) (by omega)) (by omega)) (by omega)

/-- The four bytes of a word, put together in either order, are the word (R59). -/
theorem wordByte_append_little (w : Word) :
    (wordByte .little w 3 ++ wordByte .little w 2 ++ wordByte .little w 1 ++ wordByte .little w 0 :
      BitVec 32) = w := by
  apply BitVec.eq_of_getLsbD_eq
  intro i hi
  simp only [wordByte, BitVec.getLsbD_append, BitVec.getLsbD_extractLsb']
  interval_cases i <;> simp

theorem wordByte_append_big (w : Word) :
    (wordByte .big w 0 ++ wordByte .big w 1 ++ wordByte .big w 2 ++ wordByte .big w 3 :
      BitVec 32) = w := by
  apply BitVec.eq_of_getLsbD_eq
  intro i hi
  simp only [wordByte, BitVec.getLsbD_append, BitVec.getLsbD_extractLsb']
  interval_cases i <;> simp

/-- A word just written reads as the word written, whatever the byte order (R59). -/
@[simp] theorem Memory.getWord_setWord_same (o : ByteOrder) (m : Memory) (a : Nat) (w : Word) :
    (m.setWord o a w).getWord o a = w := by
  cases o
  · simp only [Memory.getWord, Memory.setWord, Memory.get_set]
    simpa using wordByte_append_little w
  · simp only [Memory.getWord, Memory.setWord, Memory.get_set]
    simpa using wordByte_append_big w

/-- A word whose four bytes two memories agree on reads the same in both. -/
theorem Memory.getWord_congr (o : ByteOrder) (m m' : Memory) (a : Nat)
    (h : ∀ c, a ≤ c → c < a + 4 → m.get c = m'.get c) : m.getWord o a = m'.getWord o a := by
  have h0 := h a (by omega) (by omega)
  have h1 := h (a + 1) (by omega) (by omega)
  have h2 := h (a + 2) (by omega) (by omega)
  have h3 := h (a + 3) (by omega) (by omega)
  cases o <;> simp only [Memory.getWord, h0, h1, h2, h3]

/-! ### One 256-bit block -/

/-- Writing the first `n` words of a block changes its own bytes and no other. -/
theorem Memory.get_setWords_other (o : ByteOrder) (m : Memory) (a c n : Nat) (v : Val)
    (h : c < a ∨ a + 4 * n ≤ c) : (m.setWords o a v n).get c = m.get c := by
  induction n with
  | zero => rfl
  | succ n ih =>
    unfold Memory.setWords
    rw [Memory.get_setWord_other _ _ _ _ _ (by omega), ih (by omega)]

/-- Writing a block changes its own 32 bytes and no other (R58). -/
theorem Memory.get_setBlock_other (o : ByteOrder) (m : Memory) (a c : Nat) (v : Val)
    (h : c < a ∨ a + 32 ≤ c) : (m.setBlock o a v).get c = m.get c :=
  Memory.get_setWords_other o m a c 8 v (by omega)

theorem Memory.getWord_setWords (o : ByteOrder) (m : Memory) (a n k : Nat) (v : Val) (h : k < n) :
    (m.setWords o a v n).getWord o (a + 4 * k) = blockWord v k := by
  induction n with
  | zero => omega
  | succ n ih =>
    unfold Memory.setWords
    by_cases hk : k = n
    · rw [hk, Memory.getWord_setWord_same]
    · rw [← ih (by omega)]
      exact Memory.getWord_congr o _ _ _ fun c _ _ =>
        Memory.get_setWord_other o _ _ c _ (by omega)

/-- Word `k` of a block just written reads as bits `32k+31 .. 32k` of the value (R58). -/
theorem Memory.getWord_setBlock (o : ByteOrder) (m : Memory) (a k : Nat) (v : Val) (h : k < 8) :
    (m.setBlock o a v).getWord o (a + 4 * k) = blockWord v k :=
  Memory.getWord_setWords o m a 8 k v h

/-- The lowest word of words put together. -/
theorem extract_append_low {n : Nat} (x : BitVec n) (y : Word) : (x ++ y).extractLsb' 0 32 = y := by
  apply BitVec.eq_of_getLsbD_eq
  intro i hi
  simp [BitVec.getLsbD_append, hi]

/-- The higher words of words put together. -/
theorem extract_append_high {n : Nat} (x : BitVec n) (y : Word) (k : Nat) :
    (x ++ y).extractLsb' (k + 32) 32 = x.extractLsb' k 32 := by
  apply BitVec.eq_of_getLsbD_eq
  intro i hi
  have hge : ¬ k + 32 + i < 32 := by omega
  have hsub : k + 32 + i - 32 = k + i := by omega
  simp only [BitVec.getLsbD_extractLsb', BitVec.getLsbD_append, hge, hsub, if_false]

/-- Word `k` of a block read is the word at `a + 4k` (R57). -/
theorem Memory.getBlock_word (o : ByteOrder) (m : Memory) (a k : Nat) (h : k < 8) :
    blockWord (m.getBlock o a) k = m.getWord o (a + 4 * k) := by
  have hk : k = 0 ∨ k = 1 ∨ k = 2 ∨ k = 3 ∨ k = 4 ∨ k = 5 ∨ k = 6 ∨ k = 7 := by omega
  unfold blockWord Memory.getBlock
  rcases hk with rfl | rfl | rfl | rfl | rfl | rfl | rfl | rfl
  · exact extract_append_low _ _
  · exact (extract_append_high _ _ 0).trans (extract_append_low _ _)
  · exact (extract_append_high _ _ 32).trans
      ((extract_append_high _ _ 0).trans (extract_append_low _ _))
  · exact (extract_append_high _ _ 64).trans ((extract_append_high _ _ 32).trans
      ((extract_append_high _ _ 0).trans (extract_append_low _ _)))
  · exact (extract_append_high _ _ 96).trans ((extract_append_high _ _ 64).trans
      ((extract_append_high _ _ 32).trans ((extract_append_high _ _ 0).trans
        (extract_append_low _ _))))
  · exact (extract_append_high _ _ 128).trans ((extract_append_high _ _ 96).trans
      ((extract_append_high _ _ 64).trans ((extract_append_high _ _ 32).trans
        ((extract_append_high _ _ 0).trans (extract_append_low _ _)))))
  · exact (extract_append_high _ _ 160).trans ((extract_append_high _ _ 128).trans
      ((extract_append_high _ _ 96).trans ((extract_append_high _ _ 64).trans
        ((extract_append_high _ _ 32).trans ((extract_append_high _ _ 0).trans
          (extract_append_low _ _))))))
  · exact (extract_append_high _ _ 192).trans ((extract_append_high _ _ 160).trans
      ((extract_append_high _ _ 128).trans ((extract_append_high _ _ 96).trans
        ((extract_append_high _ _ 64).trans ((extract_append_high _ _ 32).trans
          ((extract_append_high _ _ 0).trans BitVec.extractLsb'_eq_self))))))

/-- Two 256-bit values with the same eight words are the same. -/
theorem blockWord_ext (v w : Val) (h : ∀ k < 8, blockWord v k = blockWord w k) : v = w := by
  apply BitVec.eq_of_getLsbD_eq
  intro i hi
  have hw := congrArg (fun x => x.getLsbD (i % 32)) (h (i / 32) (by omega))
  simp only [blockWord, BitVec.getLsbD_extractLsb'] at hw
  have hlt : i % 32 < 32 := Nat.mod_lt _ (by omega)
  simpa [hlt, Nat.div_add_mod] using hw

/-- A block just written reads as the value written (R57, R58). -/
@[simp] theorem Memory.getBlock_setBlock (o : ByteOrder) (m : Memory) (a : Nat) (v : Val) :
    (m.setBlock o a v).getBlock o a = v := by
  apply blockWord_ext
  intro k hk
  rw [Memory.getBlock_word _ _ _ _ hk, Memory.getWord_setBlock _ _ _ _ _ hk]

/-- Writing a block keeps the canonical form. -/
theorem Memory.wf_setBlock (o : ByteOrder) (m : Memory) (a : Nat) (v : Val) (h : m.wf = true) :
    (m.setBlock o a v).wf = true := by
  have hn : ∀ n, (m.setWords o a v n).wf = true := by
    intro n
    induction n with
    | zero => exact h
    | succ n ih => exact Memory.wf_setWord o _ _ _ ih
  exact hn 8

/-- Writing a block below `n` keeps every address below `n`. -/
theorem Memory.below_setBlock (o : ByteOrder) (m : Memory) (n a : Nat) (v : Val)
    (h : Memory.below n m) (ha : a + 32 ≤ n) : Memory.below n (m.setBlock o a v) := by
  have hk : ∀ k, k ≤ 8 → Memory.below n (m.setWords o a v k) := by
    intro k
    induction k with
    | zero => exact fun _ => h
    | succ k ih => exact fun hle => Memory.below_setWord o _ n _ _ (ih (by omega)) (by omega)
  exact hk 8 (by omega)

/-! ### The program memory -/

/-- Putting a word into the program: its own address holds it, every other one is as before. -/
theorem Program.find_put (p : Program) (a c : Nat) (w : Word) :
    (p.put a w).find c = if c = a then some w else p.find c := by
  induction p with
  | nil => simp [Program.put, Program.find, eq_comm]
  | cons q p ih =>
    obtain ⟨k, x⟩ := q
    unfold Program.put
    split
    · by_cases hc : c = a
      · simp [Program.find, hc]
      · have hac : ¬ a = c := fun e => hc e.symm
        simp [Program.find, hc, hac]
    · split
      case isTrue hak =>
        by_cases hc : c = a
        · simp [Program.find, hc]
        · have hkc : ¬ k = c := fun e => hc (e ▸ hak.symm)
          have hac : ¬ a = c := fun e => hc e.symm
          simp [Program.find, hc, hkc, hac]
      case isFalse hak =>
        simp only [Program.find]
        by_cases hkc : k = c
        · have hca : c ≠ a := fun e => hak (e ▸ hkc.symm)
          simp [hkc, hca]
        · simp [hkc, ih]

theorem Program.above_put (p : Program) (k a : Nat) (w : Word)
    (h : p.all (fun q => decide (k < q.1)) = true) (hk : k < a) :
    (p.put a w).all (fun q => decide (k < q.1)) = true := by
  induction p with
  | nil => simpa [Program.put] using hk
  | cons q p ih =>
    obtain ⟨j, x⟩ := q
    simp only [List.all_cons, Bool.and_eq_true, decide_eq_true_eq] at h
    unfold Program.put
    split
    · simp only [List.all_cons, Bool.and_eq_true, decide_eq_true_eq]; exact ⟨hk, h⟩
    · split
      · simp only [List.all_cons, Bool.and_eq_true, decide_eq_true_eq]; exact ⟨hk, h.2⟩
      · simp only [List.all_cons, Bool.and_eq_true, decide_eq_true_eq]; exact ⟨h.1, ih h.2⟩

/-- Loading a word at a multiple of 4 in 0x0000..0xFFFC keeps the form of the program (R52). -/
theorem Program.wf_put (p : Program) (a : Nat) (w : Word) (h : p.wf = true) (ha : a % 4 = 0)
    (hle : a ≤ 0xFFFC) : (p.put a w).wf = true := by
  induction p with
  | nil => simp [Program.put, Program.wf, ha]; omega
  | cons q p ih =>
    obtain ⟨k, x⟩ := q
    simp only [Program.wf, Bool.and_eq_true, beq_iff_eq, decide_eq_true_eq] at h
    obtain ⟨⟨⟨hab, hk4⟩, hkle⟩, hp⟩ := h
    unfold Program.put
    split
    case isTrue hlt =>
      simp only [Program.wf, Bool.and_eq_true, beq_iff_eq, decide_eq_true_eq, List.all_cons]
      refine ⟨⟨⟨⟨hlt, ?_⟩, ha⟩, hle⟩, ⟨⟨hab, hk4⟩, hkle⟩, hp⟩
      simp only [List.all_eq_true, decide_eq_true_eq] at hab ⊢
      exact fun r hr => Nat.lt_trans hlt (hab r hr)
    · split
      case isTrue hak =>
        subst hak
        simp only [Program.wf, Bool.and_eq_true, beq_iff_eq, decide_eq_true_eq]
        exact ⟨⟨⟨hab, ha⟩, hle⟩, hp⟩
      case isFalse hge hak =>
        simp only [Program.wf, Bool.and_eq_true, beq_iff_eq, decide_eq_true_eq]
        exact ⟨⟨⟨Program.above_put p k a w hab (by omega), hk4⟩, hkle⟩, ih hp⟩

end Sys2Proof.Machine
end

