-- ==== Sys2Proof/Laws/State.lean ====
section
/-! SUPPORT. One lemma per field of `State` and per update of Machine/Operands.lean, Flags.lean and
Ops.lean, each true by `rfl`, so that no proof unfolds a record update. -/

namespace Sys2Proof.Machine

variable (s : State)

/-! `State.setReg` -/
@[simp] theorem State.setReg_regs (r : RegNo) (v : Val) : (s.setReg r v).regs = s.regs.set r.toNat v r.isLt := rfl
@[simp] theorem State.setReg_pc (r : RegNo) (v : Val) : (s.setReg r v).pc = s.pc := rfl
@[simp] theorem State.setReg_pcCarry (r : RegNo) (v : Val) : (s.setReg r v).pcCarry = s.pcCarry := rfl
@[simp] theorem State.setReg_flagZ (r : RegNo) (v : Val) : (s.setReg r v).flagZ = s.flagZ := rfl
@[simp] theorem State.setReg_flagC (r : RegNo) (v : Val) : (s.setReg r v).flagC = s.flagC := rfl
@[simp] theorem State.setReg_flagE (r : RegNo) (v : Val) : (s.setReg r v).flagE = s.flagE := rfl
@[simp] theorem State.setReg_rar (r : RegNo) (v : Val) : (s.setReg r v).rar = s.rar := rfl
@[simp] theorem State.setReg_sha (r : RegNo) (v : Val) : (s.setReg r v).sha = s.sha := rfl
@[simp] theorem State.setReg_tmac (r : RegNo) (v : Val) : (s.setReg r v).tmac = s.tmac := rfl
@[simp] theorem State.setReg_statusDone (r : RegNo) (v : Val) : (s.setReg r v).statusDone = s.statusDone := rfl
@[simp] theorem State.setReg_run (r : RegNo) (v : Val) : (s.setReg r v).run = s.run := rfl
@[simp] theorem State.setReg_mem (r : RegNo) (v : Val) : (s.setReg r v).mem = s.mem := rfl
@[simp] theorem State.setReg_imem (r : RegNo) (v : Val) : (s.setReg r v).imem = s.imem := rfl
@[simp] theorem State.setReg_readable (r : RegNo) (v : Val) : (s.setReg r v).readable = s.readable := rfl
@[simp] theorem State.setReg_writable (r : RegNo) (v : Val) : (s.setReg r v).writable = s.writable := rfl
@[simp] theorem State.setReg_rarDepth (r : RegNo) (v : Val) : (s.setReg r v).rarDepth = s.rarDepth := rfl
@[simp] theorem State.setReg_parityMode (r : RegNo) (v : Val) : (s.setReg r v).parityMode = s.parityMode := rfl
@[simp] theorem State.setReg_byteOrder (r : RegNo) (v : Val) : (s.setReg r v).byteOrder = s.byteOrder := rfl
@[simp] theorem State.setReg_kbusLog (r : RegNo) (v : Val) : (s.setReg r v).kbusLog = s.kbusLog := rfl
@[simp] theorem State.setReg_draws (r : RegNo) (v : Val) : (s.setReg r v).draws = s.draws := rfl
@[simp] theorem State.setReg_cycles (r : RegNo) (v : Val) : (s.setReg r v).cycles = s.cycles := rfl
@[simp] theorem State.setReg_pcValue (r : RegNo) (v : Val) : (s.setReg r v).pcValue = s.pcValue := rfl

/-! `State.setZ` -/
@[simp] theorem State.setZ_regs (b : Bool) : (s.setZ b).regs = s.regs := rfl
@[simp] theorem State.setZ_pc (b : Bool) : (s.setZ b).pc = s.pc := rfl
@[simp] theorem State.setZ_pcCarry (b : Bool) : (s.setZ b).pcCarry = s.pcCarry := rfl
@[simp] theorem State.setZ_flagZ (b : Bool) : (s.setZ b).flagZ = b := rfl
@[simp] theorem State.setZ_flagC (b : Bool) : (s.setZ b).flagC = s.flagC := rfl
@[simp] theorem State.setZ_flagE (b : Bool) : (s.setZ b).flagE = s.flagE := rfl
@[simp] theorem State.setZ_rar (b : Bool) : (s.setZ b).rar = s.rar := rfl
@[simp] theorem State.setZ_sha (b : Bool) : (s.setZ b).sha = s.sha := rfl
@[simp] theorem State.setZ_tmac (b : Bool) : (s.setZ b).tmac = s.tmac := rfl
@[simp] theorem State.setZ_statusDone (b : Bool) : (s.setZ b).statusDone = s.statusDone := rfl
@[simp] theorem State.setZ_run (b : Bool) : (s.setZ b).run = s.run := rfl
@[simp] theorem State.setZ_mem (b : Bool) : (s.setZ b).mem = s.mem := rfl
@[simp] theorem State.setZ_imem (b : Bool) : (s.setZ b).imem = s.imem := rfl
@[simp] theorem State.setZ_readable (b : Bool) : (s.setZ b).readable = s.readable := rfl
@[simp] theorem State.setZ_writable (b : Bool) : (s.setZ b).writable = s.writable := rfl
@[simp] theorem State.setZ_rarDepth (b : Bool) : (s.setZ b).rarDepth = s.rarDepth := rfl
@[simp] theorem State.setZ_parityMode (b : Bool) : (s.setZ b).parityMode = s.parityMode := rfl
@[simp] theorem State.setZ_byteOrder (b : Bool) : (s.setZ b).byteOrder = s.byteOrder := rfl
@[simp] theorem State.setZ_kbusLog (b : Bool) : (s.setZ b).kbusLog = s.kbusLog := rfl
@[simp] theorem State.setZ_draws (b : Bool) : (s.setZ b).draws = s.draws := rfl
@[simp] theorem State.setZ_cycles (b : Bool) : (s.setZ b).cycles = s.cycles := rfl
@[simp] theorem State.setZ_reg (b : Bool) (q : RegNo) : (s.setZ b).reg q = s.reg q := rfl
@[simp] theorem State.setZ_pcValue (b : Bool) : (s.setZ b).pcValue = s.pcValue := rfl

/-! `State.setC` -/
@[simp] theorem State.setC_regs (b : Bool) : (s.setC b).regs = s.regs := rfl
@[simp] theorem State.setC_pc (b : Bool) : (s.setC b).pc = s.pc := rfl
@[simp] theorem State.setC_pcCarry (b : Bool) : (s.setC b).pcCarry = s.pcCarry := rfl
@[simp] theorem State.setC_flagZ (b : Bool) : (s.setC b).flagZ = s.flagZ := rfl
@[simp] theorem State.setC_flagC (b : Bool) : (s.setC b).flagC = b := rfl
@[simp] theorem State.setC_flagE (b : Bool) : (s.setC b).flagE = s.flagE := rfl
@[simp] theorem State.setC_rar (b : Bool) : (s.setC b).rar = s.rar := rfl
@[simp] theorem State.setC_sha (b : Bool) : (s.setC b).sha = s.sha := rfl
@[simp] theorem State.setC_tmac (b : Bool) : (s.setC b).tmac = s.tmac := rfl
@[simp] theorem State.setC_statusDone (b : Bool) : (s.setC b).statusDone = s.statusDone := rfl
@[simp] theorem State.setC_run (b : Bool) : (s.setC b).run = s.run := rfl
@[simp] theorem State.setC_mem (b : Bool) : (s.setC b).mem = s.mem := rfl
@[simp] theorem State.setC_imem (b : Bool) : (s.setC b).imem = s.imem := rfl
@[simp] theorem State.setC_readable (b : Bool) : (s.setC b).readable = s.readable := rfl
@[simp] theorem State.setC_writable (b : Bool) : (s.setC b).writable = s.writable := rfl
@[simp] theorem State.setC_rarDepth (b : Bool) : (s.setC b).rarDepth = s.rarDepth := rfl
@[simp] theorem State.setC_parityMode (b : Bool) : (s.setC b).parityMode = s.parityMode := rfl
@[simp] theorem State.setC_byteOrder (b : Bool) : (s.setC b).byteOrder = s.byteOrder := rfl
@[simp] theorem State.setC_kbusLog (b : Bool) : (s.setC b).kbusLog = s.kbusLog := rfl
@[simp] theorem State.setC_draws (b : Bool) : (s.setC b).draws = s.draws := rfl
@[simp] theorem State.setC_cycles (b : Bool) : (s.setC b).cycles = s.cycles := rfl
@[simp] theorem State.setC_reg (b : Bool) (q : RegNo) : (s.setC b).reg q = s.reg q := rfl
@[simp] theorem State.setC_pcValue (b : Bool) : (s.setC b).pcValue = s.pcValue := rfl

/-! `State.setE` -/
@[simp] theorem State.setE_regs (b : Bool) : (s.setE b).regs = s.regs := rfl
@[simp] theorem State.setE_pc (b : Bool) : (s.setE b).pc = s.pc := rfl
@[simp] theorem State.setE_pcCarry (b : Bool) : (s.setE b).pcCarry = s.pcCarry := rfl
@[simp] theorem State.setE_flagZ (b : Bool) : (s.setE b).flagZ = s.flagZ := rfl
@[simp] theorem State.setE_flagC (b : Bool) : (s.setE b).flagC = s.flagC := rfl
@[simp] theorem State.setE_flagE (b : Bool) : (s.setE b).flagE = b := rfl
@[simp] theorem State.setE_rar (b : Bool) : (s.setE b).rar = s.rar := rfl
@[simp] theorem State.setE_sha (b : Bool) : (s.setE b).sha = s.sha := rfl
@[simp] theorem State.setE_tmac (b : Bool) : (s.setE b).tmac = s.tmac := rfl
@[simp] theorem State.setE_statusDone (b : Bool) : (s.setE b).statusDone = s.statusDone := rfl
@[simp] theorem State.setE_run (b : Bool) : (s.setE b).run = s.run := rfl
@[simp] theorem State.setE_mem (b : Bool) : (s.setE b).mem = s.mem := rfl
@[simp] theorem State.setE_imem (b : Bool) : (s.setE b).imem = s.imem := rfl
@[simp] theorem State.setE_readable (b : Bool) : (s.setE b).readable = s.readable := rfl
@[simp] theorem State.setE_writable (b : Bool) : (s.setE b).writable = s.writable := rfl
@[simp] theorem State.setE_rarDepth (b : Bool) : (s.setE b).rarDepth = s.rarDepth := rfl
@[simp] theorem State.setE_parityMode (b : Bool) : (s.setE b).parityMode = s.parityMode := rfl
@[simp] theorem State.setE_byteOrder (b : Bool) : (s.setE b).byteOrder = s.byteOrder := rfl
@[simp] theorem State.setE_kbusLog (b : Bool) : (s.setE b).kbusLog = s.kbusLog := rfl
@[simp] theorem State.setE_draws (b : Bool) : (s.setE b).draws = s.draws := rfl
@[simp] theorem State.setE_cycles (b : Bool) : (s.setE b).cycles = s.cycles := rfl
@[simp] theorem State.setE_reg (b : Bool) (q : RegNo) : (s.setE b).reg q = s.reg q := rfl
@[simp] theorem State.setE_pcValue (b : Bool) : (s.setE b).pcValue = s.pcValue := rfl

/-! `State.advance` -/
@[simp] theorem State.advance_regs : (s.advance).regs = s.regs := rfl
@[simp] theorem State.advance_pc : (s.advance).pc = s.pc + 4 := rfl
@[simp] theorem State.advance_pcCarry : (s.advance).pcCarry = decide (0x10000 ≤ s.pc.toNat + 4) := rfl
@[simp] theorem State.advance_flagZ : (s.advance).flagZ = s.flagZ := rfl
@[simp] theorem State.advance_flagC : (s.advance).flagC = s.flagC := rfl
@[simp] theorem State.advance_flagE : (s.advance).flagE = s.flagE := rfl
@[simp] theorem State.advance_rar : (s.advance).rar = s.rar := rfl
@[simp] theorem State.advance_sha : (s.advance).sha = s.sha := rfl
@[simp] theorem State.advance_tmac : (s.advance).tmac = s.tmac := rfl
@[simp] theorem State.advance_statusDone : (s.advance).statusDone = s.statusDone := rfl
@[simp] theorem State.advance_run : (s.advance).run = s.run := rfl
@[simp] theorem State.advance_mem : (s.advance).mem = s.mem := rfl
@[simp] theorem State.advance_imem : (s.advance).imem = s.imem := rfl
@[simp] theorem State.advance_readable : (s.advance).readable = s.readable := rfl
@[simp] theorem State.advance_writable : (s.advance).writable = s.writable := rfl
@[simp] theorem State.advance_rarDepth : (s.advance).rarDepth = s.rarDepth := rfl
@[simp] theorem State.advance_parityMode : (s.advance).parityMode = s.parityMode := rfl
@[simp] theorem State.advance_byteOrder : (s.advance).byteOrder = s.byteOrder := rfl
@[simp] theorem State.advance_kbusLog : (s.advance).kbusLog = s.kbusLog := rfl
@[simp] theorem State.advance_draws : (s.advance).draws = s.draws := rfl
@[simp] theorem State.advance_cycles : (s.advance).cycles = s.cycles := rfl
@[simp] theorem State.advance_reg (q : RegNo) : (s.advance).reg q = s.reg q := rfl

/-! `State.setPc` -/
@[simp] theorem State.setPc_regs (t : Addr) : (s.setPc t).regs = s.regs := rfl
@[simp] theorem State.setPc_pc (t : Addr) : (s.setPc t).pc = t := rfl
@[simp] theorem State.setPc_pcCarry (t : Addr) : (s.setPc t).pcCarry = false := rfl
@[simp] theorem State.setPc_flagZ (t : Addr) : (s.setPc t).flagZ = s.flagZ := rfl
@[simp] theorem State.setPc_flagC (t : Addr) : (s.setPc t).flagC = s.flagC := rfl
@[simp] theorem State.setPc_flagE (t : Addr) : (s.setPc t).flagE = s.flagE := rfl
@[simp] theorem State.setPc_rar (t : Addr) : (s.setPc t).rar = s.rar := rfl
@[simp] theorem State.setPc_sha (t : Addr) : (s.setPc t).sha = s.sha := rfl
@[simp] theorem State.setPc_tmac (t : Addr) : (s.setPc t).tmac = s.tmac := rfl
@[simp] theorem State.setPc_statusDone (t : Addr) : (s.setPc t).statusDone = s.statusDone := rfl
@[simp] theorem State.setPc_run (t : Addr) : (s.setPc t).run = s.run := rfl
@[simp] theorem State.setPc_mem (t : Addr) : (s.setPc t).mem = s.mem := rfl
@[simp] theorem State.setPc_imem (t : Addr) : (s.setPc t).imem = s.imem := rfl
@[simp] theorem State.setPc_readable (t : Addr) : (s.setPc t).readable = s.readable := rfl
@[simp] theorem State.setPc_writable (t : Addr) : (s.setPc t).writable = s.writable := rfl
@[simp] theorem State.setPc_rarDepth (t : Addr) : (s.setPc t).rarDepth = s.rarDepth := rfl
@[simp] theorem State.setPc_parityMode (t : Addr) : (s.setPc t).parityMode = s.parityMode := rfl
@[simp] theorem State.setPc_byteOrder (t : Addr) : (s.setPc t).byteOrder = s.byteOrder := rfl
@[simp] theorem State.setPc_kbusLog (t : Addr) : (s.setPc t).kbusLog = s.kbusLog := rfl
@[simp] theorem State.setPc_draws (t : Addr) : (s.setPc t).draws = s.draws := rfl
@[simp] theorem State.setPc_cycles (t : Addr) : (s.setPc t).cycles = s.cycles := rfl
@[simp] theorem State.setPc_reg (t : Addr) (q : RegNo) : (s.setPc t).reg q = s.reg q := rfl

/-! `State.setMem` -/
@[simp] theorem State.setMem_regs (m : Memory) : (s.setMem m).regs = s.regs := rfl
@[simp] theorem State.setMem_pc (m : Memory) : (s.setMem m).pc = s.pc := rfl
@[simp] theorem State.setMem_pcCarry (m : Memory) : (s.setMem m).pcCarry = s.pcCarry := rfl
@[simp] theorem State.setMem_flagZ (m : Memory) : (s.setMem m).flagZ = s.flagZ := rfl
@[simp] theorem State.setMem_flagC (m : Memory) : (s.setMem m).flagC = s.flagC := rfl
@[simp] theorem State.setMem_flagE (m : Memory) : (s.setMem m).flagE = s.flagE := rfl
@[simp] theorem State.setMem_rar (m : Memory) : (s.setMem m).rar = s.rar := rfl
@[simp] theorem State.setMem_sha (m : Memory) : (s.setMem m).sha = s.sha := rfl
@[simp] theorem State.setMem_tmac (m : Memory) : (s.setMem m).tmac = s.tmac := rfl
@[simp] theorem State.setMem_statusDone (m : Memory) : (s.setMem m).statusDone = s.statusDone := rfl
@[simp] theorem State.setMem_run (m : Memory) : (s.setMem m).run = s.run := rfl
@[simp] theorem State.setMem_mem (m : Memory) : (s.setMem m).mem = m := rfl
@[simp] theorem State.setMem_imem (m : Memory) : (s.setMem m).imem = s.imem := rfl
@[simp] theorem State.setMem_readable (m : Memory) : (s.setMem m).readable = s.readable := rfl
@[simp] theorem State.setMem_writable (m : Memory) : (s.setMem m).writable = s.writable := rfl
@[simp] theorem State.setMem_rarDepth (m : Memory) : (s.setMem m).rarDepth = s.rarDepth := rfl
@[simp] theorem State.setMem_parityMode (m : Memory) : (s.setMem m).parityMode = s.parityMode := rfl
@[simp] theorem State.setMem_byteOrder (m : Memory) : (s.setMem m).byteOrder = s.byteOrder := rfl
@[simp] theorem State.setMem_kbusLog (m : Memory) : (s.setMem m).kbusLog = s.kbusLog := rfl
@[simp] theorem State.setMem_draws (m : Memory) : (s.setMem m).draws = s.draws := rfl
@[simp] theorem State.setMem_cycles (m : Memory) : (s.setMem m).cycles = s.cycles := rfl
@[simp] theorem State.setMem_reg (m : Memory) (q : RegNo) : (s.setMem m).reg q = s.reg q := rfl
@[simp] theorem State.setMem_pcValue (m : Memory) : (s.setMem m).pcValue = s.pcValue := rfl

/-! `State.setRar` -/
@[simp] theorem State.setRar_regs (l : List Addr) : (s.setRar l).regs = s.regs := rfl
@[simp] theorem State.setRar_pc (l : List Addr) : (s.setRar l).pc = s.pc := rfl
@[simp] theorem State.setRar_pcCarry (l : List Addr) : (s.setRar l).pcCarry = s.pcCarry := rfl
@[simp] theorem State.setRar_flagZ (l : List Addr) : (s.setRar l).flagZ = s.flagZ := rfl
@[simp] theorem State.setRar_flagC (l : List Addr) : (s.setRar l).flagC = s.flagC := rfl
@[simp] theorem State.setRar_flagE (l : List Addr) : (s.setRar l).flagE = s.flagE := rfl
@[simp] theorem State.setRar_rar (l : List Addr) : (s.setRar l).rar = l := rfl
@[simp] theorem State.setRar_sha (l : List Addr) : (s.setRar l).sha = s.sha := rfl
@[simp] theorem State.setRar_tmac (l : List Addr) : (s.setRar l).tmac = s.tmac := rfl
@[simp] theorem State.setRar_statusDone (l : List Addr) : (s.setRar l).statusDone = s.statusDone := rfl
@[simp] theorem State.setRar_run (l : List Addr) : (s.setRar l).run = s.run := rfl
@[simp] theorem State.setRar_mem (l : List Addr) : (s.setRar l).mem = s.mem := rfl
@[simp] theorem State.setRar_imem (l : List Addr) : (s.setRar l).imem = s.imem := rfl
@[simp] theorem State.setRar_readable (l : List Addr) : (s.setRar l).readable = s.readable := rfl
@[simp] theorem State.setRar_writable (l : List Addr) : (s.setRar l).writable = s.writable := rfl
@[simp] theorem State.setRar_rarDepth (l : List Addr) : (s.setRar l).rarDepth = s.rarDepth := rfl
@[simp] theorem State.setRar_parityMode (l : List Addr) : (s.setRar l).parityMode = s.parityMode := rfl
@[simp] theorem State.setRar_byteOrder (l : List Addr) : (s.setRar l).byteOrder = s.byteOrder := rfl
@[simp] theorem State.setRar_kbusLog (l : List Addr) : (s.setRar l).kbusLog = s.kbusLog := rfl
@[simp] theorem State.setRar_draws (l : List Addr) : (s.setRar l).draws = s.draws := rfl
@[simp] theorem State.setRar_cycles (l : List Addr) : (s.setRar l).cycles = s.cycles := rfl
@[simp] theorem State.setRar_reg (l : List Addr) (q : RegNo) : (s.setRar l).reg q = s.reg q := rfl
@[simp] theorem State.setRar_pcValue (l : List Addr) : (s.setRar l).pcValue = s.pcValue := rfl

/-! `State.setSha` -/
@[simp] theorem State.setSha_regs (v : BitVec 512) : (s.setSha v).regs = s.regs := rfl
@[simp] theorem State.setSha_pc (v : BitVec 512) : (s.setSha v).pc = s.pc := rfl
@[simp] theorem State.setSha_pcCarry (v : BitVec 512) : (s.setSha v).pcCarry = s.pcCarry := rfl
@[simp] theorem State.setSha_flagZ (v : BitVec 512) : (s.setSha v).flagZ = s.flagZ := rfl
@[simp] theorem State.setSha_flagC (v : BitVec 512) : (s.setSha v).flagC = s.flagC := rfl
@[simp] theorem State.setSha_flagE (v : BitVec 512) : (s.setSha v).flagE = s.flagE := rfl
@[simp] theorem State.setSha_rar (v : BitVec 512) : (s.setSha v).rar = s.rar := rfl
@[simp] theorem State.setSha_sha (v : BitVec 512) : (s.setSha v).sha = v := rfl
@[simp] theorem State.setSha_tmac (v : BitVec 512) : (s.setSha v).tmac = s.tmac := rfl
@[simp] theorem State.setSha_statusDone (v : BitVec 512) : (s.setSha v).statusDone = s.statusDone := rfl
@[simp] theorem State.setSha_run (v : BitVec 512) : (s.setSha v).run = s.run := rfl
@[simp] theorem State.setSha_mem (v : BitVec 512) : (s.setSha v).mem = s.mem := rfl
@[simp] theorem State.setSha_imem (v : BitVec 512) : (s.setSha v).imem = s.imem := rfl
@[simp] theorem State.setSha_readable (v : BitVec 512) : (s.setSha v).readable = s.readable := rfl
@[simp] theorem State.setSha_writable (v : BitVec 512) : (s.setSha v).writable = s.writable := rfl
@[simp] theorem State.setSha_rarDepth (v : BitVec 512) : (s.setSha v).rarDepth = s.rarDepth := rfl
@[simp] theorem State.setSha_parityMode (v : BitVec 512) : (s.setSha v).parityMode = s.parityMode := rfl
@[simp] theorem State.setSha_byteOrder (v : BitVec 512) : (s.setSha v).byteOrder = s.byteOrder := rfl
@[simp] theorem State.setSha_kbusLog (v : BitVec 512) : (s.setSha v).kbusLog = s.kbusLog := rfl
@[simp] theorem State.setSha_draws (v : BitVec 512) : (s.setSha v).draws = s.draws := rfl
@[simp] theorem State.setSha_cycles (v : BitVec 512) : (s.setSha v).cycles = s.cycles := rfl
@[simp] theorem State.setSha_reg (v : BitVec 512) (q : RegNo) : (s.setSha v).reg q = s.reg q := rfl
@[simp] theorem State.setSha_pcValue (v : BitVec 512) : (s.setSha v).pcValue = s.pcValue := rfl

/-! `State.setTmac` -/
@[simp] theorem State.setTmac_regs (t : TmacState) : (s.setTmac t).regs = s.regs := rfl
@[simp] theorem State.setTmac_pc (t : TmacState) : (s.setTmac t).pc = s.pc := rfl
@[simp] theorem State.setTmac_pcCarry (t : TmacState) : (s.setTmac t).pcCarry = s.pcCarry := rfl
@[simp] theorem State.setTmac_flagZ (t : TmacState) : (s.setTmac t).flagZ = s.flagZ := rfl
@[simp] theorem State.setTmac_flagC (t : TmacState) : (s.setTmac t).flagC = s.flagC := rfl
@[simp] theorem State.setTmac_flagE (t : TmacState) : (s.setTmac t).flagE = s.flagE := rfl
@[simp] theorem State.setTmac_rar (t : TmacState) : (s.setTmac t).rar = s.rar := rfl
@[simp] theorem State.setTmac_sha (t : TmacState) : (s.setTmac t).sha = s.sha := rfl
@[simp] theorem State.setTmac_tmac (t : TmacState) : (s.setTmac t).tmac = t := rfl
@[simp] theorem State.setTmac_statusDone (t : TmacState) : (s.setTmac t).statusDone = s.statusDone := rfl
@[simp] theorem State.setTmac_run (t : TmacState) : (s.setTmac t).run = s.run := rfl
@[simp] theorem State.setTmac_mem (t : TmacState) : (s.setTmac t).mem = s.mem := rfl
@[simp] theorem State.setTmac_imem (t : TmacState) : (s.setTmac t).imem = s.imem := rfl
@[simp] theorem State.setTmac_readable (t : TmacState) : (s.setTmac t).readable = s.readable := rfl
@[simp] theorem State.setTmac_writable (t : TmacState) : (s.setTmac t).writable = s.writable := rfl
@[simp] theorem State.setTmac_rarDepth (t : TmacState) : (s.setTmac t).rarDepth = s.rarDepth := rfl
@[simp] theorem State.setTmac_parityMode (t : TmacState) : (s.setTmac t).parityMode = s.parityMode := rfl
@[simp] theorem State.setTmac_byteOrder (t : TmacState) : (s.setTmac t).byteOrder = s.byteOrder := rfl
@[simp] theorem State.setTmac_kbusLog (t : TmacState) : (s.setTmac t).kbusLog = s.kbusLog := rfl
@[simp] theorem State.setTmac_draws (t : TmacState) : (s.setTmac t).draws = s.draws := rfl
@[simp] theorem State.setTmac_cycles (t : TmacState) : (s.setTmac t).cycles = s.cycles := rfl
@[simp] theorem State.setTmac_reg (t : TmacState) (q : RegNo) : (s.setTmac t).reg q = s.reg q := rfl
@[simp] theorem State.setTmac_pcValue (t : TmacState) : (s.setTmac t).pcValue = s.pcValue := rfl

/-! `State.logKbus` -/
@[simp] theorem State.logKbus_regs (ev : KbusEvent) : (s.logKbus ev).regs = s.regs := rfl
@[simp] theorem State.logKbus_pc (ev : KbusEvent) : (s.logKbus ev).pc = s.pc := rfl
@[simp] theorem State.logKbus_pcCarry (ev : KbusEvent) : (s.logKbus ev).pcCarry = s.pcCarry := rfl
@[simp] theorem State.logKbus_flagZ (ev : KbusEvent) : (s.logKbus ev).flagZ = s.flagZ := rfl
@[simp] theorem State.logKbus_flagC (ev : KbusEvent) : (s.logKbus ev).flagC = s.flagC := rfl
@[simp] theorem State.logKbus_flagE (ev : KbusEvent) : (s.logKbus ev).flagE = s.flagE := rfl
@[simp] theorem State.logKbus_rar (ev : KbusEvent) : (s.logKbus ev).rar = s.rar := rfl
@[simp] theorem State.logKbus_sha (ev : KbusEvent) : (s.logKbus ev).sha = s.sha := rfl
@[simp] theorem State.logKbus_tmac (ev : KbusEvent) : (s.logKbus ev).tmac = s.tmac := rfl
@[simp] theorem State.logKbus_statusDone (ev : KbusEvent) : (s.logKbus ev).statusDone = s.statusDone := rfl
@[simp] theorem State.logKbus_run (ev : KbusEvent) : (s.logKbus ev).run = s.run := rfl
@[simp] theorem State.logKbus_mem (ev : KbusEvent) : (s.logKbus ev).mem = s.mem := rfl
@[simp] theorem State.logKbus_imem (ev : KbusEvent) : (s.logKbus ev).imem = s.imem := rfl
@[simp] theorem State.logKbus_readable (ev : KbusEvent) : (s.logKbus ev).readable = s.readable := rfl
@[simp] theorem State.logKbus_writable (ev : KbusEvent) : (s.logKbus ev).writable = s.writable := rfl
@[simp] theorem State.logKbus_rarDepth (ev : KbusEvent) : (s.logKbus ev).rarDepth = s.rarDepth := rfl
@[simp] theorem State.logKbus_parityMode (ev : KbusEvent) : (s.logKbus ev).parityMode = s.parityMode := rfl
@[simp] theorem State.logKbus_byteOrder (ev : KbusEvent) : (s.logKbus ev).byteOrder = s.byteOrder := rfl
@[simp] theorem State.logKbus_kbusLog (ev : KbusEvent) : (s.logKbus ev).kbusLog = s.kbusLog ++ [ev] := rfl
@[simp] theorem State.logKbus_draws (ev : KbusEvent) : (s.logKbus ev).draws = s.draws := rfl
@[simp] theorem State.logKbus_cycles (ev : KbusEvent) : (s.logKbus ev).cycles = s.cycles := rfl
@[simp] theorem State.logKbus_reg (ev : KbusEvent) (q : RegNo) : (s.logKbus ev).reg q = s.reg q := rfl
@[simp] theorem State.logKbus_pcValue (ev : KbusEvent) : (s.logKbus ev).pcValue = s.pcValue := rfl

/-! `State.countDraw` -/
@[simp] theorem State.countDraw_regs : (s.countDraw).regs = s.regs := rfl
@[simp] theorem State.countDraw_pc : (s.countDraw).pc = s.pc := rfl
@[simp] theorem State.countDraw_pcCarry : (s.countDraw).pcCarry = s.pcCarry := rfl
@[simp] theorem State.countDraw_flagZ : (s.countDraw).flagZ = s.flagZ := rfl
@[simp] theorem State.countDraw_flagC : (s.countDraw).flagC = s.flagC := rfl
@[simp] theorem State.countDraw_flagE : (s.countDraw).flagE = s.flagE := rfl
@[simp] theorem State.countDraw_rar : (s.countDraw).rar = s.rar := rfl
@[simp] theorem State.countDraw_sha : (s.countDraw).sha = s.sha := rfl
@[simp] theorem State.countDraw_tmac : (s.countDraw).tmac = s.tmac := rfl
@[simp] theorem State.countDraw_statusDone : (s.countDraw).statusDone = s.statusDone := rfl
@[simp] theorem State.countDraw_run : (s.countDraw).run = s.run := rfl
@[simp] theorem State.countDraw_mem : (s.countDraw).mem = s.mem := rfl
@[simp] theorem State.countDraw_imem : (s.countDraw).imem = s.imem := rfl
@[simp] theorem State.countDraw_readable : (s.countDraw).readable = s.readable := rfl
@[simp] theorem State.countDraw_writable : (s.countDraw).writable = s.writable := rfl
@[simp] theorem State.countDraw_rarDepth : (s.countDraw).rarDepth = s.rarDepth := rfl
@[simp] theorem State.countDraw_parityMode : (s.countDraw).parityMode = s.parityMode := rfl
@[simp] theorem State.countDraw_byteOrder : (s.countDraw).byteOrder = s.byteOrder := rfl
@[simp] theorem State.countDraw_kbusLog : (s.countDraw).kbusLog = s.kbusLog := rfl
@[simp] theorem State.countDraw_draws : (s.countDraw).draws = s.draws + 1 := rfl
@[simp] theorem State.countDraw_cycles : (s.countDraw).cycles = s.cycles := rfl
@[simp] theorem State.countDraw_reg (q : RegNo) : (s.countDraw).reg q = s.reg q := rfl
@[simp] theorem State.countDraw_pcValue : (s.countDraw).pcValue = s.pcValue := rfl

/-! `State.finish` -/
@[simp] theorem State.finish_regs : (s.finish).regs = s.regs := rfl
@[simp] theorem State.finish_pc : (s.finish).pc = s.pc := rfl
@[simp] theorem State.finish_pcCarry : (s.finish).pcCarry = s.pcCarry := rfl
@[simp] theorem State.finish_flagZ : (s.finish).flagZ = s.flagZ := rfl
@[simp] theorem State.finish_flagC : (s.finish).flagC = s.flagC := rfl
@[simp] theorem State.finish_flagE : (s.finish).flagE = s.flagE := rfl
@[simp] theorem State.finish_rar : (s.finish).rar = s.rar := rfl
@[simp] theorem State.finish_sha : (s.finish).sha = s.sha := rfl
@[simp] theorem State.finish_tmac : (s.finish).tmac = s.tmac := rfl
@[simp] theorem State.finish_statusDone : (s.finish).statusDone = true := rfl
@[simp] theorem State.finish_run : (s.finish).run = .done := rfl
@[simp] theorem State.finish_mem : (s.finish).mem = s.mem := rfl
@[simp] theorem State.finish_imem : (s.finish).imem = s.imem := rfl
@[simp] theorem State.finish_readable : (s.finish).readable = s.readable := rfl
@[simp] theorem State.finish_writable : (s.finish).writable = s.writable := rfl
@[simp] theorem State.finish_rarDepth : (s.finish).rarDepth = s.rarDepth := rfl
@[simp] theorem State.finish_parityMode : (s.finish).parityMode = s.parityMode := rfl
@[simp] theorem State.finish_byteOrder : (s.finish).byteOrder = s.byteOrder := rfl
@[simp] theorem State.finish_kbusLog : (s.finish).kbusLog = s.kbusLog := rfl
@[simp] theorem State.finish_draws : (s.finish).draws = s.draws := rfl
@[simp] theorem State.finish_cycles : (s.finish).cycles = s.cycles := rfl
@[simp] theorem State.finish_reg (q : RegNo) : (s.finish).reg q = s.reg q := rfl
@[simp] theorem State.finish_pcValue : (s.finish).pcValue = s.pcValue := rfl

/-! `State.afterFault` -/
@[simp] theorem State.afterFault_regs (f : Fault) : (s.afterFault f).regs = s.regs := rfl
@[simp] theorem State.afterFault_pc (f : Fault) : (s.afterFault f).pc = s.pc := rfl
@[simp] theorem State.afterFault_pcCarry (f : Fault) : (s.afterFault f).pcCarry = s.pcCarry := rfl
@[simp] theorem State.afterFault_flagZ (f : Fault) : (s.afterFault f).flagZ = s.flagZ := rfl
@[simp] theorem State.afterFault_flagC (f : Fault) : (s.afterFault f).flagC = s.flagC := rfl
@[simp] theorem State.afterFault_flagE (f : Fault) : (s.afterFault f).flagE = s.flagE := rfl
@[simp] theorem State.afterFault_rar (f : Fault) : (s.afterFault f).rar = s.rar := rfl
@[simp] theorem State.afterFault_sha (f : Fault) : (s.afterFault f).sha = s.sha := rfl
@[simp] theorem State.afterFault_tmac (f : Fault) : (s.afterFault f).tmac = s.tmac := rfl
@[simp] theorem State.afterFault_statusDone (f : Fault) : (s.afterFault f).statusDone = s.statusDone := rfl
@[simp] theorem State.afterFault_run (f : Fault) : (s.afterFault f).run = .faulted f := rfl
@[simp] theorem State.afterFault_mem (f : Fault) : (s.afterFault f).mem = s.mem := rfl
@[simp] theorem State.afterFault_imem (f : Fault) : (s.afterFault f).imem = s.imem := rfl
@[simp] theorem State.afterFault_readable (f : Fault) : (s.afterFault f).readable = s.readable := rfl
@[simp] theorem State.afterFault_writable (f : Fault) : (s.afterFault f).writable = s.writable := rfl
@[simp] theorem State.afterFault_rarDepth (f : Fault) : (s.afterFault f).rarDepth = s.rarDepth := rfl
@[simp] theorem State.afterFault_parityMode (f : Fault) : (s.afterFault f).parityMode = s.parityMode := rfl
@[simp] theorem State.afterFault_byteOrder (f : Fault) : (s.afterFault f).byteOrder = s.byteOrder := rfl
@[simp] theorem State.afterFault_kbusLog (f : Fault) : (s.afterFault f).kbusLog = s.kbusLog := rfl
@[simp] theorem State.afterFault_draws (f : Fault) : (s.afterFault f).draws = s.draws := rfl
@[simp] theorem State.afterFault_cycles (f : Fault) : (s.afterFault f).cycles = s.cycles := rfl
@[simp] theorem State.afterFault_reg (f : Fault) (q : RegNo) : (s.afterFault f).reg q = s.reg q := rfl
@[simp] theorem State.afterFault_pcValue (f : Fault) : (s.afterFault f).pcValue = s.pcValue := rfl

/-! `State.tick` -/
@[simp] theorem State.tick_regs (cost : Option Nat) : (s.tick cost).regs = s.regs := rfl
@[simp] theorem State.tick_pc (cost : Option Nat) : (s.tick cost).pc = s.pc := rfl
@[simp] theorem State.tick_pcCarry (cost : Option Nat) : (s.tick cost).pcCarry = s.pcCarry := rfl
@[simp] theorem State.tick_flagZ (cost : Option Nat) : (s.tick cost).flagZ = s.flagZ := rfl
@[simp] theorem State.tick_flagC (cost : Option Nat) : (s.tick cost).flagC = s.flagC := rfl
@[simp] theorem State.tick_flagE (cost : Option Nat) : (s.tick cost).flagE = s.flagE := rfl
@[simp] theorem State.tick_rar (cost : Option Nat) : (s.tick cost).rar = s.rar := rfl
@[simp] theorem State.tick_sha (cost : Option Nat) : (s.tick cost).sha = s.sha := rfl
@[simp] theorem State.tick_tmac (cost : Option Nat) : (s.tick cost).tmac = s.tmac := rfl
@[simp] theorem State.tick_statusDone (cost : Option Nat) : (s.tick cost).statusDone = s.statusDone := rfl
@[simp] theorem State.tick_run (cost : Option Nat) : (s.tick cost).run = s.run := rfl
@[simp] theorem State.tick_mem (cost : Option Nat) : (s.tick cost).mem = s.mem := rfl
@[simp] theorem State.tick_imem (cost : Option Nat) : (s.tick cost).imem = s.imem := rfl
@[simp] theorem State.tick_readable (cost : Option Nat) : (s.tick cost).readable = s.readable := rfl
@[simp] theorem State.tick_writable (cost : Option Nat) : (s.tick cost).writable = s.writable := rfl
@[simp] theorem State.tick_rarDepth (cost : Option Nat) : (s.tick cost).rarDepth = s.rarDepth := rfl
@[simp] theorem State.tick_parityMode (cost : Option Nat) : (s.tick cost).parityMode = s.parityMode := rfl
@[simp] theorem State.tick_byteOrder (cost : Option Nat) : (s.tick cost).byteOrder = s.byteOrder := rfl
@[simp] theorem State.tick_kbusLog (cost : Option Nat) : (s.tick cost).kbusLog = s.kbusLog := rfl
@[simp] theorem State.tick_draws (cost : Option Nat) : (s.tick cost).draws = s.draws := rfl
@[simp] theorem State.tick_reg (cost : Option Nat) (q : RegNo) : (s.tick cost).reg q = s.reg q := rfl
@[simp] theorem State.tick_pcValue (cost : Option Nat) : (s.tick cost).pcValue = s.pcValue := rfl

/-- A register just written reads as the value written (R21). -/
@[simp] theorem State.setReg_reg_same (r : RegNo) (v : Val) : (s.setReg r v).reg r = v := by
  simp [State.reg]

/-- Writing a register leaves every other one alone (R21). -/
theorem State.setReg_reg_other (r q : RegNo) (v : Val) (h : q ≠ r) :
    (s.setReg r v).reg q = s.reg q := by
  have hne : r.toNat ≠ q.toNat := fun he => h (BitVec.eq_of_toNat_eq he.symm)
  simp [State.reg, hne]

/-- Reading after writing, both cases (R21). -/
theorem State.setReg_reg (r q : RegNo) (v : Val) :
    (s.setReg r v).reg q = if q = r then v else s.reg q := by
  by_cases h : q = r
  · subst h; simp
  · simp [h, State.setReg_reg_other]

/-- The counter after a tick (R341). -/
@[simp] theorem State.tick_cycles (cost : Option Nat) :
    (s.tick cost).cycles = match s.cycles, cost with
      | some n, some k => some (n + k)
      | _, _ => none := rfl

/-- Going on moves the pc by 4, without wrap-around (R25). -/
@[simp] theorem State.advance_pcValue : s.advance.pcValue = s.pc.toNat + 4 := by
  have h : s.pc.toNat < 65536 := s.pc.isLt
  simp only [State.pcValue, State.advance_pc, State.advance_pcCarry, BitVec.toNat_add]
  by_cases hc : 65536 ≤ s.pc.toNat + 4
  · simp [hc]; omega
  · simp [hc]; omega

/-- A transfer leaves the pc at its target. -/
@[simp] theorem State.setPc_pcValue (t : Addr) : (s.setPc t).pcValue = t.toNat := rfl

end Sys2Proof.Machine
end

