-- ==== Sys2Proof/Laws/Ops.lean ====
section
/-! SUPPORT. For each shared operation of Machine/Ops.lean, once, all that it can do: later proofs cite
these instead of unfolding the operation. -/

namespace Sys2Proof.Machine

variable (s t : State)

/-! ### Register pairs -/

/-- What a pair write leaves in each register (R194, R208). -/
theorem State.setRegPair_reg (r q : RegNo) (v : BitVec 512) :
    (s.setRegPair r v).reg q =
      if q = r + 1 then v.extractLsb' 256 256 else if q = r then v.extractLsb' 0 256 else s.reg q := by
  simp [State.setRegPair, State.setReg_reg]

/-- A pair write changes the registers and nothing else. -/
theorem State.setRegPair_eq (r : RegNo) (v : BitVec 512) :
    ∃ rs, s.setRegPair r v = { s with regs := rs } := ⟨_, rfl⟩

/-! ### Transfers of control -/

/-- A jump that completes had an aligned target and only loads the pc (R271). -/
theorem State.jump_next {target : Addr} :
    s.jump target = .next t ↔ targetOk target = true ∧ t = s.setPc target := by
  unfold State.jump raise
  split
  case isTrue h => simp [h, eq_comm]
  case isFalse h => simp [h]

/-- A jump never refuses, and its only fault is the target's (R271). -/
theorem State.jump_fault {target : Addr} {f : Fault} :
    s.jump target = .fault f ↔ targetOk target = false ∧ f = .misalignedTarget s.pcValue target := by
  unfold State.jump raise
  split
  case isTrue h => simp [h]
  case isFalse h => simp [h, eq_comm]

/-- A branch that completes went to its aligned target or went on (R272). -/
theorem State.branch_next {taken : Bool} {target : Addr} :
    s.branch taken target = .next t ↔
      (taken = true ∧ targetOk target = true ∧ t = s.setPc target) ∨
        (taken = false ∧ t = s.advance) := by
  unfold State.branch
  cases taken
  · simp only [Bool.false_eq_true, if_false, false_and, true_and, false_or, eq_comm,
      Host.Outcome.next.injEq]
  · simp [State.jump_next]

/-! ### Memory access -/

/-- A word address passes the checks exactly when it is in range, aligned and admitted (R55, R56). -/
theorem wordFault_none {admitted : Nat → Bool} {pc a : Nat} :
    wordFault admitted pc a = none ↔ a ≤ 0xFFFC ∧ a % 4 = 0 ∧ admitted a = true := by
  unfold wordFault
  split
  case isTrue h => exact ⟨fun e => (nomatch e), fun e => absurd e.1 (by omega)⟩
  case isFalse h =>
    split
    case isTrue h4 => exact ⟨fun e => (nomatch e), fun e => absurd e.2.1 h4⟩
    case isFalse h4 =>
      split
      case isTrue ha => exact ⟨fun _ => ⟨by omega, by omega, ha⟩, fun _ => rfl⟩
      case isFalse ha => exact ⟨fun e => (nomatch e), fun e => absurd e.2.2 ha⟩

/-- A block passes the checks exactly when each of its eight words does (R57, R58). -/
theorem blockFault_none {admitted : Nat → Bool} {pc a : Nat} :
    blockFault admitted pc a = none ↔ ∀ k < 8, wordFault admitted pc (a + 4 * k) = none := by
  simp only [blockFault, List.findSome?_eq_none_iff, List.mem_cons, List.not_mem_nil, or_false]
  constructor
  · intro h k hk
    exact h (4 * k) (by omega)
  · intro h d hd
    obtain ⟨k, hk, rfl⟩ : ∃ k < 8, d = 4 * k := ⟨d / 4, by omega, by omega⟩
    exact h k hk

/-- A block passes the checks exactly when it is in range, aligned and admitted word by word. -/
theorem blockFault_none_iff {admitted : Nat → Bool} {pc a : Nat} :
    blockFault admitted pc a = none ↔
      a ≤ 0xFFE0 ∧ a % 4 = 0 ∧ ∀ k < 8, admitted (a + 4 * k) = true := by
  simp only [blockFault_none, wordFault_none]
  constructor
  · intro h
    have h7 := h 7 (by omega)
    have h0 := h 0 (by omega)
    exact ⟨by omega, by omega, fun k hk => (h k hk).2.2⟩
  · rintro ⟨hle, h4, hadm⟩ k hk
    exact ⟨by omega, by omega, hadm k hk⟩

/-- A read that succeeds passed the checks and gives the block's value (R57). -/
theorem State.memRead_ok {ea : Nat} {v : Val} :
    s.memRead ea = .ok v ↔
      blockFault s.readAdmitted s.pcValue ea = none ∧ v = s.mem.getBlock s.byteOrder ea := by
  unfold State.memRead
  split
  case h_1 f h => simp [h]
  case h_2 h => simp [h, eq_comm]

/-- A write that succeeds passed the checks and stores the block (R58). -/
theorem State.memWrite_ok {ea : Nat} {v : Val} :
    s.memWrite ea v = .ok t ↔
      blockFault s.writeAdmitted s.pcValue ea = none ∧
        t = s.setMem (s.mem.setBlock s.byteOrder ea v) := by
  unfold State.memWrite
  split
  case h_1 f h => simp [h]
  case h_2 h => simp [h, eq_comm]

/-- A load that completes: the checks passed, the register holds the block, the pc goes on. -/
theorem State.loadReg_next {op1 : RegNo} {ea : Nat} :
    s.loadReg op1 ea = .next t ↔
      blockFault s.readAdmitted s.pcValue ea = none ∧
        t = (s.setReg op1 (s.mem.getBlock s.byteOrder ea)).advance := by
  unfold State.loadReg State.memRead raise
  cases h : blockFault s.readAdmitted s.pcValue ea <;> simp [eq_comm]

/-- A load that faults: a check failed. -/
theorem State.loadReg_fault {op1 : RegNo} {ea : Nat} {f : Fault} :
    s.loadReg op1 ea = .fault f ↔ blockFault s.readAdmitted s.pcValue ea = some f := by
  unfold State.loadReg State.memRead raise
  cases h : blockFault s.readAdmitted s.pcValue ea <;> simp

/-- A store that completes: the checks passed, the block is stored, the pc goes on. -/
theorem State.storeReg_next {op1 : RegNo} {ea : Nat} :
    s.storeReg op1 ea = .next t ↔
      blockFault s.writeAdmitted s.pcValue ea = none ∧
        t = (s.setMem (s.mem.setBlock s.byteOrder ea (s.reg op1))).advance := by
  unfold State.storeReg State.memWrite raise
  cases h : blockFault s.writeAdmitted s.pcValue ea <;> simp [eq_comm]

/-- A store that faults: a check failed, and nothing was stored. -/
theorem State.storeReg_fault {op1 : RegNo} {ea : Nat} {f : Fault} :
    s.storeReg op1 ea = .fault f ↔ blockFault s.writeAdmitted s.pcValue ea = some f := by
  unfold State.storeReg State.memWrite raise
  cases h : blockFault s.writeAdmitted s.pcValue ea <;> simp

/-- A store that completes keeps the canonical form of the memory. -/
theorem State.storeReg_wf {op1 : RegNo} {ea : Nat} (h : s.storeReg op1 ea = .next t)
    (hm : s.mem.wf = true) : t.mem.wf = true := by
  obtain ⟨-, rfl⟩ := (s.storeReg_next t).mp h
  exact Memory.wf_setBlock _ _ _ _ hm

/-- The memory of `State.reset` has the canonical form, and so has its program. -/
theorem reset_mem_wf : State.reset.mem.wf = true ∧ State.reset.imem.wf = true := ⟨rfl, rfl⟩

/-! ### RAR -/

/-- A push that succeeds found room and puts the value first (R33). -/
theorem State.rarPush_ok {v : Addr} :
    s.rarPush v = .ok t ↔ s.rar.length ≠ s.rarDepth.val ∧ t = s.setRar (v :: s.rar) := by
  unfold State.rarPush
  split
  case isTrue h => simp [h]
  case isFalse h => simp only [Except.ok.injEq, ne_eq, h, not_false_eq_true, true_and, eq_comm]

/-- An empty RAR always has room, because `RAR_DEPTH` is positive (R8). -/
theorem State.rarPush_of_empty {v : Addr} (h : s.rar = []) : s.rarPush v = .ok (s.setRar [v]) := by
  rw [State.rarPush_ok, h]
  exact ⟨s.rarDepth.property.ne, rfl⟩

/-- A pop that succeeds takes the first value (R34). -/
theorem State.rarPop_ok {v : Addr} :
    s.rarPop = .ok (v, t) ↔ ∃ rest, s.rar = v :: rest ∧ t = s.setRar rest := by
  unfold State.rarPop
  split
  case h_1 h => simp [h]
  case h_2 w rest h => simp [h, eq_comm]

/-! ### The modular instructions -/

/-- A modular result is the residue of the exact integer, below the modulus (R150). -/
theorem State.modularResult_next {op1 : RegNo} {u : Int} :
    s.modularResult op1 u = .next t ↔
      s.reg modulusReg ≠ 0 ∧
        t = s.writeResult op1 (BitVec.ofInt 256 (u % ((s.reg modulusReg).toNat : Int))) := by
  unfold State.modularResult raise
  split
  case isTrue h => simp [h]
  case isFalse h => simp only [ne_eq, h, not_false_eq_true, true_and, Host.Outcome.next.injEq, eq_comm]

/-- The residue modulo a 256-bit modulus fits 256 bits (R158). -/
theorem residue_toNat (u : Int) (m : Val) (h : m ≠ 0) :
    ((BitVec.ofInt 256 (u % (m.toNat : Int))).toNat : Int) = u % (m.toNat : Int) := by
  have hm : m.toNat ≠ 0 := fun e => h (BitVec.eq_of_toNat_eq e)
  have h0 : 0 ≤ u % (m.toNat : Int) := Int.emod_nonneg _ (by omega)
  have h1 : u % (m.toNat : Int) < m.toNat := Int.emod_lt_of_pos _ (by omega)
  have h2 : (m.toNat : Int) < 2 ^ 256 := by exact_mod_cast m.isLt
  rw [BitVec.toNat_ofInt]
  push_cast
  rw [Int.toNat_of_nonneg (Int.emod_nonneg _ (by norm_num))]
  exact Int.emod_eq_of_lt h0 (by linarith)

/-! ### Conditional swaps -/

/-- What a conditional swap leaves in each register (R173). -/
theorem State.swapIf_reg (cond : Bool) (op1 op2 q : RegNo) :
    (s.swapIf cond op1 op2).reg q =
      if cond then (if q = op2 then s.reg op1 else if q = op1 then s.reg op2 else s.reg q)
      else s.reg q := by
  unfold State.swapIf
  cases cond <;> simp [State.setReg_reg]

/-! ### Key-bus requests -/

/-- The end of a request touches the history, E and the pc only (R236, R30). -/
theorem State.endRequest_eq (ev : KbusEvent) (err : Bool) :
    s.endRequest ev err = ((s.logKbus ev).setE err).advance := rfl

end Sys2Proof.Machine
end

