-- ==== Sys2Proof/Laws/Meanings.lean ====
section
/-! SUPPORT. For each meaning that can fault, once, when it completes and with what state, and when it
faults. The other meanings are `.next` of a state by definition. -/

namespace Sys2Proof.Machine

variable (s t : State)

/-- HASH completes inside the register file (R190, R194). -/
theorem execHash_next {op1 op2 : RegNo} :
    execHash op1 op2 s = .next t ↔ op2.toNat ≤ 28 ∧ op1.toNat ≤ 30 ∧
      t = ((s.setSha (sha512Compress s.sha (s.regGroup op2))).setRegPair op1
        (sha512Compress s.sha (s.regGroup op2))).advance := by
  unfold execHash raise lastGroupOfFour lastPair
  generalize sha512Compress s.sha (s.regGroup op2) = v
  split
  case isTrue h => exact ⟨fun e => (nomatch e), fun e => absurd h (by omega)⟩
  case isFalse h =>
    rw [Host.Outcome.next.injEq]
    exact ⟨fun e => ⟨by omega, by omega, e.symm⟩, fun e => e.2.2.symm⟩

/-- HASH faults outside the register file (R190). -/
theorem execHash_fault {op1 op2 : RegNo} {f : Fault} :
    execHash op1 op2 s = .fault f ↔
      (28 < op2.toNat ∨ 30 < op1.toNat) ∧ f = .registerIndexOutOfRange s.pcValue := by
  unfold execHash raise lastGroupOfFour lastPair
  generalize sha512Compress s.sha (s.regGroup op2) = v
  split
  case isTrue h => simp [h, eq_comm]
  case isFalse h => simp [h]

/-- TMAC_IT completes inside the register file (R190, R198). -/
theorem execTmacIt_next {op2 : RegNo} :
    execTmacIt op2 s = .next t ↔ op2.toNat ≤ 28 ∧
      t = (s.setTmac (Config.tmacInit (s.regGroup op2))).advance := by
  unfold execTmacIt raise lastGroupOfFour
  split
  case isTrue h => exact ⟨fun e => (nomatch e), fun e => absurd h (by omega)⟩
  case isFalse h =>
    rw [Host.Outcome.next.injEq]
    exact ⟨fun e => ⟨by omega, e.symm⟩, fun e => e.2.symm⟩

/-- TMAC_IT faults outside the register file (R190). -/
theorem execTmacIt_fault {op2 : RegNo} {f : Fault} :
    execTmacIt op2 s = .fault f ↔
      28 < op2.toNat ∧ f = .registerIndexOutOfRange s.pcValue := by
  unfold execTmacIt raise lastGroupOfFour
  split
  case isTrue h => simp [h, eq_comm]
  case isFalse h => simp [h]

/-- SCB completes inside the register file (R190, R208). -/
theorem execScb_next {op1 op2 op3 : RegNo} :
    execScb op1 op2 op3 s = .next t ↔ op1.toNat ≤ 30 ∧
      t = (s.setRegPair op1
        (Config.blind (s.reg op2) (s.reg op3) (s.reg modulusReg))).advance := by
  unfold execScb raise lastPair
  split
  case isTrue h => exact ⟨fun e => (nomatch e), fun e => absurd h (by omega)⟩
  case isFalse h =>
    rw [Host.Outcome.next.injEq]
    exact ⟨fun e => ⟨by omega, e.symm⟩, fun e => e.2.symm⟩

/-- SCB faults outside the register file (R190). -/
theorem execScb_fault {op1 op2 op3 : RegNo} {f : Fault} :
    execScb op1 op2 op3 s = .fault f ↔
      30 < op1.toNat ∧ f = .registerIndexOutOfRange s.pcValue := by
  unfold execScb raise lastPair
  split
  case isTrue h => simp [h, eq_comm]
  case isFalse h => simp [h]

/-- TMAC_IS completes when the Immediate's unnamed bits are 0 (R242). -/
theorem execTmacIs_next {op2 : RegNo} {imm : Imm} :
    execTmacIs op2 imm s = .next t ↔ initstringImmOk imm = true ∧
      t = (s.setTmac (Config.tmacInitstr s.tmac (s.reg op2) (initstringN imm))).advance := by
  unfold execTmacIs raise
  split
  case isTrue h => simp only [h, true_and, Host.Outcome.next.injEq, eq_comm]
  case isFalse h => simp [h]

/-- LDK completes when the Immediate's unnamed bits are 0 (R237). -/
theorem execLdk_next {op1 op2 : RegNo} {imm : Imm} :
    execLdk op1 op2 imm s = .next t ↔ keyImmOk imm = true ∧
      ∃ err data, (err, data) = Config.kbusRead s.kbusLog (keyType imm) (keySlot (s.reg op2))
          (keyOffset imm) ∧
        t = (s.setReg op1 data).endRequest
          (.read (keyType imm) (keySlot (s.reg op2)) (keyOffset imm) err data) err := by
  unfold execLdk raise
  split
  case isTrue h =>
    simp only [h, true_and, Host.Outcome.next.injEq]
    constructor
    · rintro rfl
      exact ⟨_, _, rfl, rfl⟩
    · rintro ⟨err, data, he, rfl⟩
      rw [← he]
  case isFalse h => simp [h]

/-- STK completes when the Immediate's unnamed bits are 0 (R238). -/
theorem execStk_next {op1 op2 : RegNo} {imm : Imm} :
    execStk op1 op2 imm s = .next t ↔ keyImmOk imm = true ∧
      ∃ err, err = Config.kbusWrite s.kbusLog (s.reg op1) (keyType imm) (keySlot (s.reg op2))
          (keyOffset imm) ∧
        t = s.endRequest
          (.write (s.reg op1) (keyType imm) (keySlot (s.reg op2)) (keyOffset imm) err) err := by
  unfold execStk raise
  split
  case isTrue h => simp only [h, true_and, Host.Outcome.next.injEq, exists_eq_left, eq_comm]
  case isFalse h => simp [h]

/-- KBO completes when the Immediate's unnamed bits are 0 (R239). -/
theorem execKbo_next {op2 : RegNo} {imm : Imm} :
    execKbo op2 imm s = .next t ↔ kboImmOk imm = true ∧
      ∃ err, err = Config.kbusOp s.kbusLog (keyType imm) (keySlot (s.reg op2))
          (keyOperation imm) ∧
        t = s.endRequest
          (.op (keyType imm) (keySlot (s.reg op2)) (keyOperation imm) err) err := by
  unfold execKbo raise
  split
  case isTrue h => simp only [h, true_and, Host.Outcome.next.injEq, exists_eq_left, eq_comm]
  case isFalse h => simp [h]

/-- CALL completes when the return address and the target pass and RAR has room (R273). -/
theorem execCall_next {newpc : Addr} :
    execCall newpc s = .next t ↔ s.pcValue + 4 ≤ 0xFFFC ∧ targetOk newpc = true ∧
      s.rar.length ≠ s.rarDepth.val ∧ t = (s.setRar ((s.pc + 4) :: s.rar)).setPc newpc := by
  unfold execCall State.rarPush raise
  split
  case isTrue h => exact ⟨fun e => (nomatch e), fun e => absurd e.1 (by omega)⟩
  case isFalse h =>
    have hle : s.pcValue + 4 ≤ 0xFFFC := by omega
    split
    case isTrue ht =>
      by_cases hr : s.rar.length = s.rarDepth.val
      · simp [hr]
      · simp only [hr, if_false, Host.Outcome.next.injEq, hle, ht, ne_eq, not_false_eq_true,
          true_and, eq_comm]
    case isFalse ht => simp [ht]

/-- RET completes when RAR is not empty and its first entry passes the target check (R274, R271). -/
theorem execRet_next :
    execRet s = .next t ↔ ∃ ra rest, s.rar = ra :: rest ∧ targetOk ra = true ∧
      t = (s.setRar rest).setPc ra := by
  unfold execRet State.rarPop raise
  split
  case h_1 f h =>
    split at h
    case h_1 hr => simp [hr]
    case h_2 => cases h
  case h_2 ra s' h =>
    split at h
    case h_1 => cases h
    case h_2 a rest hr =>
      cases h
      rw [State.jump_next]
      constructor
      · rintro ⟨h1, rfl⟩
        exact ⟨ra, rest, hr, h1, rfl⟩
      · rintro ⟨b, l, hb, h1, rfl⟩
        rw [hr] at hb
        cases hb
        exact ⟨h1, rfl⟩

/-- NOP, END and HASH_IT complete always; so do all meanings that are `.next` by definition. -/
theorem execHashIt_next : execHashIt s = .next t ↔ t = (s.setSha sha512Init).advance := by
  unfold execHashIt
  rw [Host.Outcome.next.injEq, eq_comm]

end Sys2Proof.Machine
end

