-- ==== Sys2Proof/Laws/PerInstr.lean ====
section
/-! SUPPORT. Facts about every instruction, one lemma per constructor of `Instr`. `EncodeFitsRow`: the word
the encoder gives agrees with its row of 30_encoding.md rule R90 in every bit of the row's mask, so it
selects that row and has 0 in every unused bit (R91, R96). -/

namespace Sys2Proof.Laws

/-! ### Operand fields keep out of the bits a mask fixes -/

theorem putOp1_and_7FC0007F (x : RegNo) : putOp1 x &&& 0x7FC0007F = 0 := by
  apply BitVec.eq_of_getLsbD_eq
  intro i hi
  interval_cases i <;> simp [putOp1]

theorem putOp2_and_7FC0007F (x : RegNo) : putOp2 x &&& 0x7FC0007F = 0 := by
  apply BitVec.eq_of_getLsbD_eq
  intro i hi
  interval_cases i <;> simp [putOp2]

theorem putOp3_and_7FC0007F (x : RegNo) : putOp3 x &&& 0x7FC0007F = 0 := by
  apply BitVec.eq_of_getLsbD_eq
  intro i hi
  interval_cases i <;> simp [putOp3]

theorem putOp2_and_7FFE007F (x : RegNo) : putOp2 x &&& 0x7FFE007F = 0 := by
  apply BitVec.eq_of_getLsbD_eq
  intro i hi
  interval_cases i <;> simp [putOp2]

theorem putOp3_and_7FFE007F (x : RegNo) : putOp3 x &&& 0x7FFE007F = 0 := by
  apply BitVec.eq_of_getLsbD_eq
  intro i hi
  interval_cases i <;> simp [putOp3]

theorem putOp1_and_7FC00FFF (x : RegNo) : putOp1 x &&& 0x7FC00FFF = 0 := by
  apply BitVec.eq_of_getLsbD_eq
  intro i hi
  interval_cases i <;> simp [putOp1]

theorem putOp2_and_7FC00FFF (x : RegNo) : putOp2 x &&& 0x7FC00FFF = 0 := by
  apply BitVec.eq_of_getLsbD_eq
  intro i hi
  interval_cases i <;> simp [putOp2]

theorem putOp2_and_7FFE0FFF (x : RegNo) : putOp2 x &&& 0x7FFE0FFF = 0 := by
  apply BitVec.eq_of_getLsbD_eq
  intro i hi
  interval_cases i <;> simp [putOp2]

theorem putOp1_and_7FC1FFFF (x : RegNo) : putOp1 x &&& 0x7FC1FFFF = 0 := by
  apply BitVec.eq_of_getLsbD_eq
  intro i hi
  interval_cases i <;> simp [putOp1]

theorem putOp1_and_7FC00000 (x : RegNo) : putOp1 x &&& 0x7FC00000 = 0 := by
  apply BitVec.eq_of_getLsbD_eq
  intro i hi
  interval_cases i <;> simp [putOp1]

theorem putOp2_and_7FC00000 (x : RegNo) : putOp2 x &&& 0x7FC00000 = 0 := by
  apply BitVec.eq_of_getLsbD_eq
  intro i hi
  interval_cases i <;> simp [putOp2]

theorem putImm_and_7FC00000 (x : Imm) : putImm x &&& 0x7FC00000 = 0 := by
  apply BitVec.eq_of_getLsbD_eq
  intro i hi
  interval_cases i <;> simp [putImm]

theorem putOp2_and_7FFE0000 (x : RegNo) : putOp2 x &&& 0x7FFE0000 = 0 := by
  apply BitVec.eq_of_getLsbD_eq
  intro i hi
  interval_cases i <;> simp [putOp2]

theorem putImm_and_7FFE0000 (x : Imm) : putImm x &&& 0x7FFE0000 = 0 := by
  apply BitVec.eq_of_getLsbD_eq
  intro i hi
  interval_cases i <;> simp [putImm]

theorem putOp1_and_7FC1F000 (x : RegNo) : putOp1 x &&& 0x7FC1F000 = 0 := by
  apply BitVec.eq_of_getLsbD_eq
  intro i hi
  interval_cases i <;> simp [putOp1]

theorem putImm_and_7FC1F000 (x : Imm) : putImm x &&& 0x7FC1F000 = 0 := by
  apply BitVec.eq_of_getLsbD_eq
  intro i hi
  interval_cases i <;> simp [putImm]

theorem putOp1_and_7FC10000 (x : RegNo) : putOp1 x &&& 0x7FC10000 = 0 := by
  apply BitVec.eq_of_getLsbD_eq
  intro i hi
  interval_cases i <;> simp [putOp1]

theorem putAddr_and_7FC10000 (x : Addr) : putAddr x &&& 0x7FC10000 = 0 := by
  apply BitVec.eq_of_getLsbD_eq
  intro i hi
  interval_cases i <;> simp [putAddr]

theorem putAddr_and_7FFF0000 (x : Addr) : putAddr x &&& 0x7FFF0000 = 0 := by
  apply BitVec.eq_of_getLsbD_eq
  intro i hi
  interval_cases i <;> simp [putAddr]

/-- A pattern and operand bits that keep out of the mask's bits fit the row. -/
theorem fits_of_operands (pat mask ops : Word) (hp : pat &&& mask = pat) (ho : ops &&& mask = 0) :
    (pat ||| ops) &&& mask = pat := by
  rw [BitVec.and_comm, BitVec.and_or_distrib_left, BitVec.and_comm mask pat, hp,
    BitVec.and_comm mask ops, ho]
  simp

theorem or_and_zero (x y mask : Word) (hx : x &&& mask = 0) (hy : y &&& mask = 0) :
    (x ||| y) &&& mask = 0 := by
  rw [BitVec.and_comm, BitVec.and_or_distrib_left, BitVec.and_comm mask x, hx,
    BitVec.and_comm mask y, hy]
  simp

/-! ### The family -/

/-- A row's pattern has 1s only where its mask has (R90). -/
theorem pattern_and_mask (o : Op) : (encRow o).pattern &&& (encRow o).mask = (encRow o).pattern := by
  cases o <;> decide

/-- The encoding of an instruction has the bits that its row's mask fixes as its row's pattern has them
(R90, R91, R96). -/
def EncodeFitsRow.Statement (i : Instr) : Prop :=
  encode .none i &&& (encRow i.op).mask = (encRow i.op).pattern

theorem EncodeFitsRow.add (a : RegNo) (b : RegNo) (c : RegNo) : EncodeFitsRow.Statement (.add a b c) :=
  fits_of_operands _ _ _ (pattern_and_mask .add) (or_and_zero _ _ _ (or_and_zero _ _ _ (putOp1_and_7FC0007F a) (putOp2_and_7FC0007F b)) (putOp3_and_7FC0007F c))

theorem EncodeFitsRow.sub (a : RegNo) (b : RegNo) (c : RegNo) : EncodeFitsRow.Statement (.sub a b c) :=
  fits_of_operands _ _ _ (pattern_and_mask .sub) (or_and_zero _ _ _ (or_and_zero _ _ _ (putOp1_and_7FC0007F a) (putOp2_and_7FC0007F b)) (putOp3_and_7FC0007F c))

theorem EncodeFitsRow.cmp (b : RegNo) (c : RegNo) : EncodeFitsRow.Statement (.cmp b c) :=
  fits_of_operands _ _ _ (pattern_and_mask .cmp) (or_and_zero _ _ _ (putOp2_and_7FFE007F b) (putOp3_and_7FFE007F c))

theorem EncodeFitsRow.and (a : RegNo) (b : RegNo) (c : RegNo) : EncodeFitsRow.Statement (.and a b c) :=
  fits_of_operands _ _ _ (pattern_and_mask .and) (or_and_zero _ _ _ (or_and_zero _ _ _ (putOp1_and_7FC0007F a) (putOp2_and_7FC0007F b)) (putOp3_and_7FC0007F c))

theorem EncodeFitsRow.or (a : RegNo) (b : RegNo) (c : RegNo) : EncodeFitsRow.Statement (.or a b c) :=
  fits_of_operands _ _ _ (pattern_and_mask .or) (or_and_zero _ _ _ (or_and_zero _ _ _ (putOp1_and_7FC0007F a) (putOp2_and_7FC0007F b)) (putOp3_and_7FC0007F c))

theorem EncodeFitsRow.xor (a : RegNo) (b : RegNo) (c : RegNo) : EncodeFitsRow.Statement (.xor a b c) :=
  fits_of_operands _ _ _ (pattern_and_mask .xor) (or_and_zero _ _ _ (or_and_zero _ _ _ (putOp1_and_7FC0007F a) (putOp2_and_7FC0007F b)) (putOp3_and_7FC0007F c))

theorem EncodeFitsRow.not (a : RegNo) (b : RegNo) : EncodeFitsRow.Statement (.not a b) :=
  fits_of_operands _ _ _ (pattern_and_mask .not) (or_and_zero _ _ _ (putOp1_and_7FC00FFF a) (putOp2_and_7FC00FFF b))

theorem EncodeFitsRow.sbit (a : RegNo) (b : RegNo) (c : RegNo) : EncodeFitsRow.Statement (.sbit a b c) :=
  fits_of_operands _ _ _ (pattern_and_mask .sbit) (or_and_zero _ _ _ (or_and_zero _ _ _ (putOp1_and_7FC0007F a) (putOp2_and_7FC0007F b)) (putOp3_and_7FC0007F c))

theorem EncodeFitsRow.cbit (a : RegNo) (b : RegNo) (c : RegNo) : EncodeFitsRow.Statement (.cbit a b c) :=
  fits_of_operands _ _ _ (pattern_and_mask .cbit) (or_and_zero _ _ _ (or_and_zero _ _ _ (putOp1_and_7FC0007F a) (putOp2_and_7FC0007F b)) (putOp3_and_7FC0007F c))

theorem EncodeFitsRow.lsl (a : RegNo) (b : RegNo) : EncodeFitsRow.Statement (.lsl a b) :=
  fits_of_operands _ _ _ (pattern_and_mask .lsl) (or_and_zero _ _ _ (putOp1_and_7FC00FFF a) (putOp2_and_7FC00FFF b))

theorem EncodeFitsRow.lsr (a : RegNo) (b : RegNo) : EncodeFitsRow.Statement (.lsr a b) :=
  fits_of_operands _ _ _ (pattern_and_mask .lsr) (or_and_zero _ _ _ (putOp1_and_7FC00FFF a) (putOp2_and_7FC00FFF b))

theorem EncodeFitsRow.rol (a : RegNo) (b : RegNo) : EncodeFitsRow.Statement (.rol a b) :=
  fits_of_operands _ _ _ (pattern_and_mask .rol) (or_and_zero _ _ _ (putOp1_and_7FC00FFF a) (putOp2_and_7FC00FFF b))

theorem EncodeFitsRow.ror (a : RegNo) (b : RegNo) : EncodeFitsRow.Statement (.ror a b) :=
  fits_of_operands _ _ _ (pattern_and_mask .ror) (or_and_zero _ _ _ (putOp1_and_7FC00FFF a) (putOp2_and_7FC00FFF b))

theorem EncodeFitsRow.rol8 (a : RegNo) (b : RegNo) : EncodeFitsRow.Statement (.rol8 a b) :=
  fits_of_operands _ _ _ (pattern_and_mask .rol8) (or_and_zero _ _ _ (putOp1_and_7FC00FFF a) (putOp2_and_7FC00FFF b))

theorem EncodeFitsRow.ror8 (a : RegNo) (b : RegNo) : EncodeFitsRow.Statement (.ror8 a b) :=
  fits_of_operands _ _ _ (pattern_and_mask .ror8) (or_and_zero _ _ _ (putOp1_and_7FC00FFF a) (putOp2_and_7FC00FFF b))

theorem EncodeFitsRow.rolin (a : RegNo) (b : RegNo) (c : RegNo) : EncodeFitsRow.Statement (.rolin a b c) :=
  fits_of_operands _ _ _ (pattern_and_mask .rolin) (or_and_zero _ _ _ (or_and_zero _ _ _ (putOp1_and_7FC0007F a) (putOp2_and_7FC0007F b)) (putOp3_and_7FC0007F c))

theorem EncodeFitsRow.rorin (a : RegNo) (b : RegNo) (c : RegNo) : EncodeFitsRow.Statement (.rorin a b c) :=
  fits_of_operands _ _ _ (pattern_and_mask .rorin) (or_and_zero _ _ _ (or_and_zero _ _ _ (putOp1_and_7FC0007F a) (putOp2_and_7FC0007F b)) (putOp3_and_7FC0007F c))

theorem EncodeFitsRow.swe (a : RegNo) (b : RegNo) : EncodeFitsRow.Statement (.swe a b) :=
  fits_of_operands _ _ _ (pattern_and_mask .swe) (or_and_zero _ _ _ (putOp1_and_7FC00FFF a) (putOp2_and_7FC00FFF b))

theorem EncodeFitsRow.mul25519 (a : RegNo) (b : RegNo) (c : RegNo) : EncodeFitsRow.Statement (.mul25519 a b c) :=
  fits_of_operands _ _ _ (pattern_and_mask .mul25519) (or_and_zero _ _ _ (or_and_zero _ _ _ (putOp1_and_7FC0007F a) (putOp2_and_7FC0007F b)) (putOp3_and_7FC0007F c))

theorem EncodeFitsRow.mul256 (a : RegNo) (b : RegNo) (c : RegNo) : EncodeFitsRow.Statement (.mul256 a b c) :=
  fits_of_operands _ _ _ (pattern_and_mask .mul256) (or_and_zero _ _ _ (or_and_zero _ _ _ (putOp1_and_7FC0007F a) (putOp2_and_7FC0007F b)) (putOp3_and_7FC0007F c))

theorem EncodeFitsRow.addp (a : RegNo) (b : RegNo) (c : RegNo) : EncodeFitsRow.Statement (.addp a b c) :=
  fits_of_operands _ _ _ (pattern_and_mask .addp) (or_and_zero _ _ _ (or_and_zero _ _ _ (putOp1_and_7FC0007F a) (putOp2_and_7FC0007F b)) (putOp3_and_7FC0007F c))

theorem EncodeFitsRow.subp (a : RegNo) (b : RegNo) (c : RegNo) : EncodeFitsRow.Statement (.subp a b c) :=
  fits_of_operands _ _ _ (pattern_and_mask .subp) (or_and_zero _ _ _ (or_and_zero _ _ _ (putOp1_and_7FC0007F a) (putOp2_and_7FC0007F b)) (putOp3_and_7FC0007F c))

theorem EncodeFitsRow.mulp (a : RegNo) (b : RegNo) (c : RegNo) : EncodeFitsRow.Statement (.mulp a b c) :=
  fits_of_operands _ _ _ (pattern_and_mask .mulp) (or_and_zero _ _ _ (or_and_zero _ _ _ (putOp1_and_7FC0007F a) (putOp2_and_7FC0007F b)) (putOp3_and_7FC0007F c))

theorem EncodeFitsRow.redp (a : RegNo) (b : RegNo) (c : RegNo) : EncodeFitsRow.Statement (.redp a b c) :=
  fits_of_operands _ _ _ (pattern_and_mask .redp) (or_and_zero _ _ _ (or_and_zero _ _ _ (putOp1_and_7FC0007F a) (putOp2_and_7FC0007F b)) (putOp3_and_7FC0007F c))

theorem EncodeFitsRow.ldr (a : RegNo) (b : RegNo) : EncodeFitsRow.Statement (.ldr a b) :=
  fits_of_operands _ _ _ (pattern_and_mask .ldr) (or_and_zero _ _ _ (putOp1_and_7FC00FFF a) (putOp2_and_7FC00FFF b))

theorem EncodeFitsRow.str (a : RegNo) (b : RegNo) : EncodeFitsRow.Statement (.str a b) :=
  fits_of_operands _ _ _ (pattern_and_mask .str) (or_and_zero _ _ _ (putOp1_and_7FC00FFF a) (putOp2_and_7FC00FFF b))

theorem EncodeFitsRow.mov (a : RegNo) (b : RegNo) : EncodeFitsRow.Statement (.mov a b) :=
  fits_of_operands _ _ _ (pattern_and_mask .mov) (or_and_zero _ _ _ (putOp1_and_7FC00FFF a) (putOp2_and_7FC00FFF b))

theorem EncodeFitsRow.cswap (a : RegNo) (b : RegNo) : EncodeFitsRow.Statement (.cswap a b) :=
  fits_of_operands _ _ _ (pattern_and_mask .cswap) (or_and_zero _ _ _ (putOp1_and_7FC00FFF a) (putOp2_and_7FC00FFF b))

theorem EncodeFitsRow.zswap (a : RegNo) (b : RegNo) : EncodeFitsRow.Statement (.zswap a b) :=
  fits_of_operands _ _ _ (pattern_and_mask .zswap) (or_and_zero _ _ _ (putOp1_and_7FC00FFF a) (putOp2_and_7FC00FFF b))

theorem EncodeFitsRow.hash (a : RegNo) (b : RegNo) : EncodeFitsRow.Statement (.hash a b) :=
  fits_of_operands _ _ _ (pattern_and_mask .hash) (or_and_zero _ _ _ (putOp1_and_7FC00FFF a) (putOp2_and_7FC00FFF b))

theorem EncodeFitsRow.tmacIt (b : RegNo) : EncodeFitsRow.Statement (.tmacIt b) :=
  fits_of_operands _ _ _ (pattern_and_mask .tmacIt) (putOp2_and_7FFE0FFF b)

theorem EncodeFitsRow.tmacUp (b : RegNo) : EncodeFitsRow.Statement (.tmacUp b) :=
  fits_of_operands _ _ _ (pattern_and_mask .tmacUp) (putOp2_and_7FFE0FFF b)

theorem EncodeFitsRow.tmacRd (a : RegNo) : EncodeFitsRow.Statement (.tmacRd a) :=
  fits_of_operands _ _ _ (pattern_and_mask .tmacRd) (putOp1_and_7FC1FFFF a)

theorem EncodeFitsRow.grv (a : RegNo) : EncodeFitsRow.Statement (.grv a) :=
  fits_of_operands _ _ _ (pattern_and_mask .grv) (putOp1_and_7FC1FFFF a)

theorem EncodeFitsRow.scb (a : RegNo) (b : RegNo) (c : RegNo) : EncodeFitsRow.Statement (.scb a b c) :=
  fits_of_operands _ _ _ (pattern_and_mask .scb) (or_and_zero _ _ _ (or_and_zero _ _ _ (putOp1_and_7FC0007F a) (putOp2_and_7FC0007F b)) (putOp3_and_7FC0007F c))

theorem EncodeFitsRow.addi (a : RegNo) (b : RegNo) (i : Imm) : EncodeFitsRow.Statement (.addi a b i) :=
  fits_of_operands _ _ _ (pattern_and_mask .addi) (or_and_zero _ _ _ (or_and_zero _ _ _ (putOp1_and_7FC00000 a) (putOp2_and_7FC00000 b)) (putImm_and_7FC00000 i))

theorem EncodeFitsRow.subi (a : RegNo) (b : RegNo) (i : Imm) : EncodeFitsRow.Statement (.subi a b i) :=
  fits_of_operands _ _ _ (pattern_and_mask .subi) (or_and_zero _ _ _ (or_and_zero _ _ _ (putOp1_and_7FC00000 a) (putOp2_and_7FC00000 b)) (putImm_and_7FC00000 i))

theorem EncodeFitsRow.cmpi (b : RegNo) (i : Imm) : EncodeFitsRow.Statement (.cmpi b i) :=
  fits_of_operands _ _ _ (pattern_and_mask .cmpi) (or_and_zero _ _ _ (putOp2_and_7FFE0000 b) (putImm_and_7FFE0000 i))

theorem EncodeFitsRow.andi (a : RegNo) (b : RegNo) (i : Imm) : EncodeFitsRow.Statement (.andi a b i) :=
  fits_of_operands _ _ _ (pattern_and_mask .andi) (or_and_zero _ _ _ (or_and_zero _ _ _ (putOp1_and_7FC00000 a) (putOp2_and_7FC00000 b)) (putImm_and_7FC00000 i))

theorem EncodeFitsRow.ori (a : RegNo) (b : RegNo) (i : Imm) : EncodeFitsRow.Statement (.ori a b i) :=
  fits_of_operands _ _ _ (pattern_and_mask .ori) (or_and_zero _ _ _ (or_and_zero _ _ _ (putOp1_and_7FC00000 a) (putOp2_and_7FC00000 b)) (putImm_and_7FC00000 i))

theorem EncodeFitsRow.xori (a : RegNo) (b : RegNo) (i : Imm) : EncodeFitsRow.Statement (.xori a b i) :=
  fits_of_operands _ _ _ (pattern_and_mask .xori) (or_and_zero _ _ _ (or_and_zero _ _ _ (putOp1_and_7FC00000 a) (putOp2_and_7FC00000 b)) (putImm_and_7FC00000 i))

theorem EncodeFitsRow.ldk (a : RegNo) (b : RegNo) (i : Imm) : EncodeFitsRow.Statement (.ldk a b i) :=
  fits_of_operands _ _ _ (pattern_and_mask .ldk) (or_and_zero _ _ _ (or_and_zero _ _ _ (putOp1_and_7FC00000 a) (putOp2_and_7FC00000 b)) (putImm_and_7FC00000 i))

theorem EncodeFitsRow.stk (a : RegNo) (b : RegNo) (i : Imm) : EncodeFitsRow.Statement (.stk a b i) :=
  fits_of_operands _ _ _ (pattern_and_mask .stk) (or_and_zero _ _ _ (or_and_zero _ _ _ (putOp1_and_7FC00000 a) (putOp2_and_7FC00000 b)) (putImm_and_7FC00000 i))

theorem EncodeFitsRow.kbo (b : RegNo) (i : Imm) : EncodeFitsRow.Statement (.kbo b i) :=
  fits_of_operands _ _ _ (pattern_and_mask .kbo) (or_and_zero _ _ _ (putOp2_and_7FFE0000 b) (putImm_and_7FFE0000 i))

theorem EncodeFitsRow.movi (a : RegNo) (i : Imm) : EncodeFitsRow.Statement (.movi a i) :=
  fits_of_operands _ _ _ (pattern_and_mask .movi) (or_and_zero _ _ _ (putOp1_and_7FC1F000 a) (putImm_and_7FC1F000 i))

theorem EncodeFitsRow.hashIt : EncodeFitsRow.Statement .hashIt :=
  fits_of_operands _ _ _ (pattern_and_mask .hashIt) BitVec.zero_and

theorem EncodeFitsRow.tmacIs (b : RegNo) (i : Imm) : EncodeFitsRow.Statement (.tmacIs b i) :=
  fits_of_operands _ _ _ (pattern_and_mask .tmacIs) (or_and_zero _ _ _ (putOp2_and_7FFE0000 b) (putImm_and_7FFE0000 i))

theorem EncodeFitsRow.ld (a : RegNo) (m : Addr) : EncodeFitsRow.Statement (.ld a m) :=
  fits_of_operands _ _ _ (pattern_and_mask .ld) (or_and_zero _ _ _ (putOp1_and_7FC10000 a) (putAddr_and_7FC10000 m))

theorem EncodeFitsRow.st (a : RegNo) (m : Addr) : EncodeFitsRow.Statement (.st a m) :=
  fits_of_operands _ _ _ (pattern_and_mask .st) (or_and_zero _ _ _ (putOp1_and_7FC10000 a) (putAddr_and_7FC10000 m))

theorem EncodeFitsRow.call (n : Addr) : EncodeFitsRow.Statement (.call n) :=
  fits_of_operands _ _ _ (pattern_and_mask .call) (putAddr_and_7FFF0000 n)

theorem EncodeFitsRow.ret : EncodeFitsRow.Statement .ret :=
  fits_of_operands _ _ _ (pattern_and_mask .ret) BitVec.zero_and

theorem EncodeFitsRow.brz (n : Addr) : EncodeFitsRow.Statement (.brz n) :=
  fits_of_operands _ _ _ (pattern_and_mask .brz) (putAddr_and_7FFF0000 n)

theorem EncodeFitsRow.brnz (n : Addr) : EncodeFitsRow.Statement (.brnz n) :=
  fits_of_operands _ _ _ (pattern_and_mask .brnz) (putAddr_and_7FFF0000 n)

theorem EncodeFitsRow.brc (n : Addr) : EncodeFitsRow.Statement (.brc n) :=
  fits_of_operands _ _ _ (pattern_and_mask .brc) (putAddr_and_7FFF0000 n)

theorem EncodeFitsRow.brnc (n : Addr) : EncodeFitsRow.Statement (.brnc n) :=
  fits_of_operands _ _ _ (pattern_and_mask .brnc) (putAddr_and_7FFF0000 n)

theorem EncodeFitsRow.bre (n : Addr) : EncodeFitsRow.Statement (.bre n) :=
  fits_of_operands _ _ _ (pattern_and_mask .bre) (putAddr_and_7FFF0000 n)

theorem EncodeFitsRow.brne (n : Addr) : EncodeFitsRow.Statement (.brne n) :=
  fits_of_operands _ _ _ (pattern_and_mask .brne) (putAddr_and_7FFF0000 n)

theorem EncodeFitsRow.jmp (n : Addr) : EncodeFitsRow.Statement (.jmp n) :=
  fits_of_operands _ _ _ (pattern_and_mask .jmp) (putAddr_and_7FFF0000 n)

theorem EncodeFitsRow.endFw : EncodeFitsRow.Statement .endFw :=
  fits_of_operands _ _ _ (pattern_and_mask .endFw) BitVec.zero_and

theorem EncodeFitsRow.nop : EncodeFitsRow.Statement .nop :=
  fits_of_operands _ _ _ (pattern_and_mask .nop) BitVec.zero_and

end Sys2Proof.Laws
end

