-- ==== Sys2Proof/Laws/Shapes.lean ====
section
/-! SUPPORT. Once, for all instructions: which shape the next state has, and what a step is. Statements
about every instruction are proved by cases on the shape, without unfolding a meaning. -/

namespace Sys2Proof.Machine

/-- The shapes of a next state, each with the mnemonics that can have it. -/
inductive Shape (o : Op) (s : State) : State → Prop where
  | plain (d : RegNo) (v : Val)
      (h : o ∈ [.sbit, .cbit, .rol8, .ror8, .rolin, .rorin, .swe, .mul25519, .mul256, .addp, .subp,
        .mulp, .redp, .ldr, .ld, .mov, .movi]) : Shape o s (s.writeResult d v)
  | zero (d : RegNo) (v : Val)
      (h : o ∈ [.add, .sub, .and, .or, .xor, .not, .addi, .subi, .andi, .ori, .xori]) :
      Shape o s (s.writeResultZ d v)
  | carry (d : RegNo) (v : Val) (c : Bool) (h : o ∈ [.lsl, .lsr, .rol, .ror]) :
      Shape o s (s.writeResultC d v c)
  | compare (d : Word) (h : o ∈ [.cmp, .cmpi]) : Shape o s (s.compareResult d)
  | store (a : Nat) (v : Val) (ha : a ≤ 0xFFE0) (h : o ∈ [.str, .st]) :
      Shape o s (s.setMem (s.mem.setBlock s.byteOrder a v)).advance
  | idle (h : o ∈ [.nop, .cswap, .zswap, .brz, .brnz, .brc, .brnc, .bre, .brne]) :
      Shape o s s.advance
  | swap (d e : RegNo) (v w : Val) (h : o ∈ [.cswap, .zswap]) :
      Shape o s ((s.setReg d v).setReg e w).advance
  | blind (d : RegNo) (v : BitVec 512) (h : o = .scb) : Shape o s (s.setRegPair d v).advance
  | hash (d : RegNo) (v : BitVec 512) (h : o = .hash) :
      Shape o s ((s.setSha v).setRegPair d v).advance
  | hashIt (v : BitVec 512) (h : o = .hashIt) : Shape o s (s.setSha v).advance
  | tmac (v : TmacState) (h : o ∈ [.tmacIt, .tmacIs, .tmacUp]) : Shape o s (s.setTmac v).advance
  | tmacRd (d : RegNo) (v : Val) (t : TmacState) (h : o = .tmacRd) :
      Shape o s ((s.setReg d v).setTmac t).advance
  | random (d : RegNo) (v : Val) (h : o = .grv) : Shape o s ((s.setReg d v).countDraw).advance
  | keyRead (d : RegNo) (v : Val) (ev : KbusEvent) (e : Bool) (h : o = .ldk) :
      Shape o s ((s.setReg d v).endRequest ev e)
  | keyReq (ev : KbusEvent) (e : Bool) (h : o ∈ [.stk, .kbo]) : Shape o s (s.endRequest ev e)
  | jump (n : Addr) (hn : targetOk n = true)
      (h : o ∈ [.jmp, .brz, .brnz, .brc, .brnc, .bre, .brne]) : Shape o s (s.setPc n)
  | call (n : Addr) (hn : targetOk n = true) (hp : s.pcValue + 4 ≤ 0xFFFC)
      (hr : s.rar.length ≠ s.rarDepth.val) (h : o = .call) :
      Shape o s ((s.setRar ((s.pc + 4) :: s.rar)).setPc n)
  | ret (n : Addr) (rest : List Addr) (hr : s.rar = n :: rest) (hn : targetOk n = true)
      (h : o = .ret) : Shape o s ((s.setRar rest).setPc n)
  | finish (h : o = .endFw) : Shape o s s.finish

variable {s t : State}

/-- The shape of a conditional swap. -/
theorem shape_swapIf {o : Op} (c : Bool) (a b : RegNo) (h : o ∈ [.cswap, .zswap]) :
    Shape o s (s.swapIf c a b) := by
  unfold State.swapIf
  split
  case isTrue => exact .swap _ _ _ _ h
  case isFalse => exact .idle (by simp at h ⊢; tauto)

/-- The shape of a conditional branch. -/
theorem shape_branch {o : Op} {c : Bool} {n : Addr}
    (h : o ∈ [.brz, .brnz, .brc, .brnc, .bre, .brne]) (hs : s.branch c n = .next t) :
    Shape o s t := by
  rcases (s.branch_next t).mp hs with ⟨-, hn, rfl⟩ | ⟨-, rfl⟩
  · exact .jump n hn (by simp at h ⊢; tauto)
  · exact .idle (by simp at h ⊢; tauto)

/-- Every next state of every instruction has one of the shapes. -/
theorem exec_shape (i : Instr) (h : exec i s = .next t) : Shape i.op s t := by
  cases i <;> simp only [exec] at h
  case hash =>
    obtain ⟨-, -, h⟩ := (execHash_next _ _).mp h
    generalize sha512Compress s.sha _ = v at h
    exact h ▸ .hash _ v rfl
  case hashIt =>
    rw [execHashIt_next] at h
    generalize sha512Init = v at h
    exact h ▸ .hashIt v rfl
  case addp | subp | mulp | redp =>
    obtain ⟨-, rfl⟩ := (s.modularResult_next t).mp h
    exact .plain _ _ (by simp [Instr.op])
  case ldr | ld =>
    obtain ⟨-, rfl⟩ := (s.loadReg_next t).mp h
    exact .plain _ _ (by simp [Instr.op])
  case str | st =>
    obtain ⟨hf, rfl⟩ := (s.storeReg_next t).mp h
    exact .store _ _ (blockFault_none_iff.mp hf).1 (by simp [Instr.op])
  case cswap | zswap => cases h; exact shape_swapIf _ _ _ (by simp [Instr.op])
  case scb =>
    obtain ⟨-, rfl⟩ := (execScb_next _ _).mp h
    exact .blind _ _ rfl
  case tmacIt =>
    obtain ⟨-, rfl⟩ := (execTmacIt_next _ _).mp h
    exact .tmac _ (by simp [Instr.op])
  case tmacIs =>
    obtain ⟨-, rfl⟩ := (execTmacIs_next _ _).mp h
    exact .tmac _ (by simp [Instr.op])
  case tmacUp => cases h; exact .tmac _ (by simp [Instr.op])
  case tmacRd => cases h; exact .tmacRd _ _ _ rfl
  case grv => cases h; exact .random _ _ rfl
  case ldk =>
    obtain ⟨-, _, _, -, rfl⟩ := (execLdk_next _ _).mp h
    exact .keyRead _ _ _ _ rfl
  case stk =>
    obtain ⟨-, _, -, rfl⟩ := (execStk_next _ _).mp h
    exact .keyReq _ _ (by simp [Instr.op])
  case kbo =>
    obtain ⟨-, _, -, rfl⟩ := (execKbo_next _ _).mp h
    exact .keyReq _ _ (by simp [Instr.op])
  case jmp =>
    obtain ⟨hn, rfl⟩ := (s.jump_next t).mp h
    exact .jump _ hn (by simp [Instr.op])
  case call =>
    obtain ⟨hp, hn, hr, rfl⟩ := (execCall_next _ _).mp h
    exact .call _ hn hp hr rfl
  case ret =>
    obtain ⟨n, rest, hr, hn, rfl⟩ := (execRet_next _ _).mp h
    exact .ret n rest hr hn rfl
  case brz | brnz | brc | brnc | bre | brne => exact shape_branch (by simp [Instr.op]) h
  case endFw => cases h; exact .finish rfl
  case nop => cases h; exact .idle (by simp [Instr.op])
  case cmp | cmpi => cases h; exact .compare _ (by simp [Instr.op])
  case lsl | lsr | rol | ror => cases h; exact .carry _ _ _ (by simp [Instr.op])
  case add | sub | and | or | xor | not | addi | subi | andi | ori | xori =>
    cases h; exact .zero _ _ (by simp [Instr.op])
  all_goals cases h; exact .plain _ _ (by simp [Instr.op])

/-- What a step that completes was: a running core, a fetched word, its instruction, its meaning, and the
ghost cycle counter (R315, R341). -/
theorem step_next_iff :
    step s = .next t ↔ s.run = .running ∧ ∃ w i u, s.fetch = some w ∧
      decode s.parityMode w = .ok i ∧ exec i s = .next u ∧ t = u.tick (cyclesOf i.op) := by
  unfold step
  constructor
  · intro h
    split at h
    case h_1 => cases h
    case h_2 => cases h
    case h_3 hr =>
      refine ⟨hr, ?_⟩
      split at h
      case h_1 => cases h
      case h_2 w hw =>
        split at h
        case h_1 => cases h
        case h_2 i hi =>
          split at h
          case h_1 u hu => cases h; exact ⟨w, i, u, hw, hi, hu, rfl⟩
          case h_2 => cases h
          case h_3 => cases h
  · rintro ⟨hr, w, i, u, hw, hi, hu, rfl⟩
    simp only [hr, hw, hi, hu]

end Sys2Proof.Machine
end

