-- ==== Sys2Proof/Tests/Slice0.lean ====
section
/-! SUPPORT. Tests on fixed values, each from spec/95_test_vectors.md (its vector's name is in the test's name
or comment), the smoke tests of WellFormed, and for each obligation with hypotheses a witness that meets
them. -/

namespace Sys2Proof.Tests

open Sys2Proof.Machine

/-! ### Helpers -/

/-- Whether the outcome is a next state that passes the check. -/
def nexts (o : Result) (p : State → Bool) : Bool :=
  match o with
  | .next t => p t
  | _ => false

/-- Whether the outcome is the fault. -/
def faults (o : Result) (f : Fault) : Bool :=
  match o with
  | .fault g => g == f
  | _ => false

/-- The check says what it is named for. -/
theorem faults_eq {o : Result} {f : Fault} (h : faults o f = true) : o = .fault f := by
  cases o <;> simp_all [faults]

/-- Reset with the registers given. -/
def withRegs : List (RegNo × Val) → State
  | [] => State.reset
  | (r, v) :: l => (withRegs l).setReg r v

/-- One step that fetches the word. -/
def run (s : State) (w : Nat) : Result := step (s.withFetchWord 32 w)

/-- Whether each word decodes to its instruction and is what its instruction encodes to. -/
def decodesBoth (l : List (Word × Instr)) : Bool :=
  l.all fun p => (match decode .none p.1 with | .ok i => i == p.2 | .error _ => false) &&
    encode .none p.2 == p.1

/-- Whether each word is rejected under the mode with the error. -/
def rejects (mode : ParityMode) (e : DecodeError) (l : List Word) : Bool :=
  l.all fun w => match decode mode w with | .ok _ => false | .error x => x == e

/-! ### Decoding: the words of V-0, one per row of the opcode table, written out bit by bit there -/

theorem test_decode_arith_logic : decodesBoth [
    (0x026AA980, .add 21 10 19),
    (0x046AA980, .sub 21 10 19),
    (0x0640A980, .cmp 10 19),
    (0x02AAA980, .and 21 10 19),
    (0x04AAA980, .or 21 10 19),
    (0x06AAA980, .xor 21 10 19),
    (0x08AAA000, .not 21 10),
    (0x0AAAA980, .sbit 21 10 19),
    (0x0CAAA980, .cbit 21 10 19)] = true := by decide

theorem test_decode_shift : decodesBoth [
    (0x02EAA000, .lsl 21 10),
    (0x04EAA000, .lsr 21 10),
    (0x06EAA000, .rol 21 10),
    (0x08EAA000, .ror 21 10),
    (0x0AEAA000, .rol8 21 10),
    (0x0CEAA000, .ror8 21 10),
    (0x0EEAA980, .rolin 21 10 19),
    (0x10EAA980, .rorin 21 10 19),
    (0x12EAA000, .swe 21 10)] = true := by decide

theorem test_decode_modular : decodesBoth [
    (0x032AA980, .mul25519 21 10 19),
    (0x052AA980, .mul256 21 10 19),
    (0x072AA980, .addp 21 10 19),
    (0x092AA980, .subp 21 10 19),
    (0x0B2AA980, .mulp 21 10 19),
    (0x0D2AA980, .redp 21 10 19)] = true := by decide

theorem test_decode_load_move_swap : decodesBoth [
    (0x036AA000, .ldr 21 10),
    (0x056AA000, .str 21 10),
    (0x03AAA000, .mov 21 10),
    (0x05AAA000, .cswap 21 10),
    (0x07AAA000, .zswap 21 10)] = true := by decide

theorem test_decode_units : decodesBoth [
    (0x09A88000, .hash 20 8),
    (0x0B808000, .tmacIt 8),
    (0x0D80A000, .tmacUp 10),
    (0x0FAA0000, .tmacRd 21),
    (0x11AA0000, .grv 21),
    (0x13A8A980, .scb 20 10 19)] = true := by decide

theorem test_decode_immediate : decodesBoth [
    (0x226AAABC, .addi 21 10 0xABC),
    (0x246AAABC, .subi 21 10 0xABC),
    (0x2640AABC, .cmpi 10 0xABC),
    (0x22AAAABC, .andi 21 10 0xABC),
    (0x24AAAABC, .ori 21 10 0xABC),
    (0x26AAAABC, .xori 21 10 0xABC),
    (0x23EAAA13, .ldk 21 10 0xA13),
    (0x25EAAA13, .stk 21 10 0xA13),
    (0x27C0AA05, .kbo 10 0xA05),
    (0x23AA0ABC, .movi 21 0xABC),
    (0x25800000, .hashIt),
    (0x2780A0C7, .tmacIs 10 0x0C7)] = true := by decide

theorem test_decode_memory : decodesBoth [
    (0x436A1234, .ld 21 0x1234),
    (0x456A1234, .st 21 0x1234)] = true := by decide

theorem test_decode_jump : decodesBoth [
    (0x62005678, .call 0x5678),
    (0x64000000, .ret),
    (0x66005678, .brz 0x5678),
    (0x68005678, .brnz 0x5678),
    (0x6A005678, .brc 0x5678),
    (0x6C005678, .brnc 0x5678),
    (0x6E005678, .bre 0x5678),
    (0x70005678, .brne 0x5678),
    (0x72005678, .jmp 0x5678),
    (0x74000000, .endFw),
    (0x76000000, .nop)] = true := by decide

/-- The column `match` of R90, row by row. -/
theorem test_match_column : allOps.map (fun o => (encRow o).pattern) = [
    0x02400000, 0x04400000, 0x06400000, 0x02800000, 0x04800000, 0x06800000, 0x08800000, 0x0A800000,
    0x0C800000, 0x02C00000, 0x04C00000, 0x06C00000, 0x08C00000, 0x0AC00000, 0x0CC00000, 0x0EC00000,
    0x10C00000, 0x12C00000, 0x03000000, 0x05000000, 0x07000000, 0x09000000, 0x0B000000, 0x0D000000,
    0x03400000, 0x05400000, 0x03800000, 0x05800000, 0x07800000, 0x09800000, 0x0B800000, 0x0D800000,
    0x0F800000, 0x11800000, 0x13800000, 0x22400000, 0x24400000, 0x26400000, 0x22800000, 0x24800000,
    0x26800000, 0x23C00000, 0x25C00000, 0x27C00000, 0x23800000, 0x25800000, 0x27800000, 0x43400000,
    0x45400000, 0x62000000, 0x64000000, 0x66000000, 0x68000000, 0x6A000000, 0x6C000000, 0x6E000000,
    0x70000000, 0x72000000, 0x74000000, 0x76000000] := by decide

/-- N1 to N9. -/
theorem test_reject_selector : rejects .none .noSuchInstruction
    [0x00000000, 0xFFFFFFFF, 0x7FC00000, 0x08400000, 0x02000000, 0x03C00000, 0x22000000, 0x42400100,
     0x47400000] = true := by decide

/-- N10 to N21. -/
theorem test_reject_unused_bits : rejects .none .unusedBitSet
    [0x02422181, 0x024221C0, 0x03822080, 0x03400080, 0x11881000, 0x26422ABC, 0x25800001, 0x43430100,
     0x62018010, 0x64000004, 0x74000001, 0x76200000] = true := by decide

/-- N26 to N28: the three parity modes. -/
theorem test_parity :
    decode .none 0x82422180 = .ok (.add 1 2 3) ∧ decode .odd 0x82422180 = .ok (.add 1 2 3) ∧
    decode .even 0x82422180 = .error .badParity ∧ decode .even 0x02422180 = .ok (.add 1 2 3) ∧
    decode .odd 0x02422180 = .error .badParity ∧ decode .odd 0x23820005 = .ok (.movi 1 5) ∧
    decode .even 0x23820005 = .error .badParity ∧ encode .even (.movi 1 5) = 0xA3820005 := by
  decide

/-- N22 to N25: the step that fetches the word faults. -/
theorem test_reject_immediate :
    run State.reset 0x23C22420 = .fault (.illegalInstruction 0x8000 0x23C22420) ∧
    run State.reset 0x25C22480 = .fault (.illegalInstruction 0x8000 0x25C22480) ∧
    run State.reset 0x27C02410 = .fault (.illegalInstruction 0x8000 0x27C02410) ∧
    run State.reset 0x27802100 = .fault (.illegalInstruction 0x8000 0x27802100) :=
  ⟨rfl, rfl, rfl, rfl⟩

/-! ### WellFormed: one ill-formed instruction for each check -/

theorem test_wellFormed_hash_pair : (Instr.hash 31 4).wellFormed = false := by decide
theorem test_wellFormed_hash_group : (Instr.hash 1 29).wellFormed = false := by decide
theorem test_wellFormed_tmacIt : (Instr.tmacIt 29).wellFormed = false := by decide
theorem test_wellFormed_scb : (Instr.scb 31 2 3).wellFormed = false := by decide
theorem test_wellFormed_ldk : (Instr.ldk 1 2 0x420).wellFormed = false := by decide
theorem test_wellFormed_stk : (Instr.stk 1 2 0x480).wellFormed = false := by decide
theorem test_wellFormed_kbo : (Instr.kbo 2 0x410).wellFormed = false := by decide
theorem test_wellFormed_tmacIs : (Instr.tmacIs 2 0x100).wellFormed = false := by decide
theorem test_wellFormed_boundary : (Instr.hash 30 28).wellFormed = true ∧
    (Instr.scb 30 2 3).wellFormed = true ∧ (Instr.ldk 1 2 0xF1F).wellFormed = true ∧
    (Instr.kbo 2 0xF0F).wellFormed = true ∧ (Instr.tmacIs 2 0x0FF).wellFormed = true := by decide

/-! ### 32-bit arithmetic (V-A) -/

theorem test_A1_add_wraps : nexts (run (withRegs [(2, 0xFFFFFFFF), (3, 1)]) 0x02422180)
    (fun t => t.reg 1 == 0 && t.flagZ && !t.flagC) = true := by decide

theorem test_A3_add_destination_is_source : nexts (run (withRegs [(1, 0x80000001)]) 0x02421080)
    (fun t => t.reg 1 == 2 && !t.flagZ) = true := by decide

theorem test_A4_sub_borrows : nexts (run (withRegs [(2, 0), (3, 1)]) 0x04422180)
    (fun t => t.reg 1 == 0xFFFFFFFF && !t.flagZ) = true := by decide

theorem test_A5_sub_low_words : nexts (run (withRegs [(2, 0x100000000000000000000000000000000000000000000000009), (3, 9)]) 0x04422180)
    (fun t => t.reg 1 == 0 && t.flagZ) = true := by decide

theorem test_A6_cmp_equal_low_words : nexts (run (withRegs [(2, 0x10000000000000000000000004), (3, 4), (1, 0x55)]) 0x06402180)
    (fun t => t.flagZ && t.reg 1 == 0x55) = true := by decide

theorem test_A7_cmp_unequal : nexts (run (withRegs [(2, 3), (3, 4)]) 0x06402180)
    (fun t => !t.flagZ) = true := by decide

theorem test_A8_addi_wraps : nexts (run (withRegs [(2, 0xFFFFFFFF)]) 0x22422FFF)
    (fun t => t.reg 1 == 0xFFE && !t.flagZ) = true := by decide

theorem test_A9_addi_low_word : nexts (run (withRegs [(2, 0x100000000)]) 0x22422000)
    (fun t => t.reg 1 == 0 && t.flagZ) = true := by decide

theorem test_A10_subi_zero_extends : nexts (run (withRegs [(2, 0)]) 0x24422FFF)
    (fun t => t.reg 1 == 0xFFFFF001 && !t.flagZ) = true := by decide

theorem test_A11_subi_zero : nexts (run (withRegs [(2, 1)]) 0x24422001)
    (fun t => t.reg 1 == 0 && t.flagZ) = true := by decide

theorem test_A12_cmpi_equal : nexts (run (withRegs [(2, 0x10000000000000abc)]) 0x26402ABC)
    (fun t => t.flagZ) = true := by decide

theorem test_A13_cmpi_unequal : nexts (run (withRegs [(2, 0xABD)]) 0x26402ABC)
    (fun t => !t.flagZ) = true := by decide

/-! ### Logic (V-B) -/

theorem test_B1_and_all_bits : nexts (run (withRegs [(2, 0x80000000000000000000000000000000000000000000000000000000000000f0), (3, 0x800000000000000000000000000000000000000000000000000000000000003c)]) 0x02822180)
    (fun t => t.reg 1 == 0x8000000000000000000000000000000000000000000000000000000000000030 && !t.flagZ) = true := by decide

theorem test_B3_or_zero : nexts (run (withRegs [(1, 5)]) 0x04822180)
    (fun t => t.reg 1 == 0 && t.flagZ) = true := by decide

theorem test_B5_xor : nexts (run (withRegs [(2, 0xFF00), (3, 0x0FF0)]) 0x06822180)
    (fun t => t.reg 1 == 0xF0F0 && !t.flagZ) = true := by decide

theorem test_B6_not_zero : nexts (run (withRegs []) 0x08822000)
    (fun t => t.reg 1 == 0xffffffffffffffffffffffffffffffffffffffffffffffffffffffffffffffff && !t.flagZ) = true := by decide

theorem test_B8_sbit_writes_no_flag : nexts (run { withRegs [(3, 255)] with flagZ := true } 0x0A822180)
    (fun t => t.reg 1 == 0x8000000000000000000000000000000000000000000000000000000000000000 && t.flagZ) = true := by decide

theorem test_B9_sbit_low_byte : nexts (run (withRegs [(3, 0x1FF)]) 0x0A822180)
    (fun t => t.reg 1 == 0x8000000000000000000000000000000000000000000000000000000000000000) = true := by decide

theorem test_B12_cbit_writes_no_flag : nexts (run (withRegs [(2, 1)]) 0x0C822180)
    (fun t => t.reg 1 == 0 && !t.flagZ) = true := by decide

theorem test_B13_cbit_clear_stays : nexts (run (withRegs [(2, 0xF0)]) 0x0C822180)
    (fun t => t.reg 1 == 0xF0) = true := by decide

theorem test_B14_andi_source_example : nexts (run (withRegs [(2, 0xFF12)]) 0x22822F0F)
    (fun t => t.reg 1 == 0xFF02 && !t.flagZ) = true := by decide

theorem test_B15_andi_zero_looks_at_all_bits : nexts (run (withRegs [(2, 0x1FFF)]) 0x22822000)
    (fun t => t.reg 1 == 0x1000 && !t.flagZ) = true := by decide

theorem test_B17_ori : nexts (run (withRegs [(2, 0x8000000000000000000000000000000000000000000000000000000000000000)]) 0x24822FFF)
    (fun t => t.reg 1 == 0x8000000000000000000000000000000000000000000000000000000000000fff && !t.flagZ) = true := by decide

theorem test_B19_xori : nexts (run (withRegs [(2, 0xABCFFF)]) 0x26822FFF)
    (fun t => t.reg 1 == 0xABC000 && !t.flagZ) = true := by decide

theorem test_B20_xori_zero : nexts (run (withRegs [(2, 0x123)]) 0x26822123)
    (fun t => t.reg 1 == 0 && t.flagZ) = true := by decide

/-! ### Shifts (V-C) -/

theorem test_C1_lsl : nexts (run (withRegs [(2, 0x8000000000000000000000000000000000000000000000000000000000000001)]) 0x02C22000)
    (fun t => t.reg 1 == 2 && t.flagC) = true := by decide

theorem test_C3_lsr_writes_no_zero : nexts (run (withRegs [(2, 1)]) 0x04C22000)
    (fun t => t.reg 1 == 0 && t.flagC && !t.flagZ) = true := by decide

theorem test_C5_rol : nexts (run (withRegs [(2, 0x8000000000000000000000000000000000000000000000000000000000000000)]) 0x06C22000)
    (fun t => t.reg 1 == 1 && t.flagC) = true := by decide

theorem test_C6_rol_not_through_carry : nexts (run { withRegs [(2, 3)] with flagC := true } 0x06C22000)
    (fun t => t.reg 1 == 6 && !t.flagC) = true := by decide

theorem test_C7_ror : nexts (run (withRegs [(2, 1)]) 0x08C22000)
    (fun t => t.reg 1 == 0x8000000000000000000000000000000000000000000000000000000000000000 && t.flagC) = true := by decide

theorem test_C8_ror_not_through_carry : nexts (run { withRegs [(2, 2)] with flagC := true } 0x08C22000)
    (fun t => t.reg 1 == 1 && !t.flagC) = true := by decide

theorem test_C9_rol8 : nexts (run { withRegs [(2, 0x0102030405060708090A0B0C0D0E0F101112131415161718191A1B1C1D1E1F20)] with flagC := true } 0x0AC22000)
    (fun t => t.reg 1 == 0x02030405060708090A0B0C0D0E0F101112131415161718191A1B1C1D1E1F2001
      && t.flagC) = true := by decide

theorem test_C10_ror8 : nexts (run (withRegs [(2, 0x0102030405060708090A0B0C0D0E0F101112131415161718191A1B1C1D1E1F20)]) 0x0CC22000)
    (fun t => t.reg 1 == 0x200102030405060708090A0B0C0D0E0F101112131415161718191A1B1C1D1E1F) = true := by decide

theorem test_C11_rolin : nexts (run (withRegs [(2, 0x0102030405060708090A0B0C0D0E0F101112131415161718191A1B1C1D1E1F20), (3, 0xAB000000000000000000000000000000000000000000000000000000000000CD)]) 0x0EC22180)
    (fun t => 
      t.reg 1 == 0x02030405060708090A0B0C0D0E0F101112131415161718191A1B1C1D1E1F20AB) = true := by decide

theorem test_C12_rorin : nexts (run (withRegs [(2, 0x0102030405060708090A0B0C0D0E0F101112131415161718191A1B1C1D1E1F20), (3, 0xAB000000000000000000000000000000000000000000000000000000000000CD)]) 0x10C22180)
    (fun t => 
      t.reg 1 == 0xCD0102030405060708090A0B0C0D0E0F101112131415161718191A1B1C1D1E1F) = true := by decide

theorem test_C13_swe : nexts (run (withRegs [(2, 0x0102030405060708090A0B0C0D0E0F101112131415161718191A1B1C1D1E1F20)]) 0x12C22000)
    (fun t => t.reg 1 == 0x201F1E1D1C1B1A191817161514131211100F0E0D0C0B0A090807060504030201) = true := by decide

/-! ### Modular arithmetic (V-D) -/

theorem test_D2_mul25519_reduces_operands : nexts (run (withRegs [(2, 0xffffffffffffffffffffffffffffffffffffffffffffffffffffffffffffffff), (3, 1)]) 0x03022180)
    (fun t => t.reg 1 == 0x25) = true := by decide

theorem test_D3_mul25519 : nexts (run (withRegs [(2, 0x8000000000000000000000000000000000000000000000000000000000000000), (3, 0x8000000000000000000000000000000000000000000000000000000000000000)]) 0x03022180)
    (fun t => t.reg 1 == 0x169) = true := by decide

theorem test_D5_mul256 : nexts (run (withRegs [(2, 0xffffffff00000001000000000000000000000000fffffffffffffffffffffffe), (3, 0xffffffff00000001000000000000000000000000fffffffffffffffffffffffe)]) 0x05022180)
    (fun t => t.reg 1 == 1) = true := by decide

theorem test_D6_mul256_low_product : nexts (run (withRegs [(2, 0x8000000000000000000000000000000000000000000000000000000000000000), (3, 2)]) 0x05022180)
    (fun t => t.reg 1 == 0xFFFFFFFEFFFFFFFFFFFFFFFFFFFFFFFF000000000000000000000001) = true := by decide

theorem test_D9_addp_exact_sum : nexts (run (withRegs [(31, 0xfffffffffffffffffffffffffffffffffffffffffffffffffffffffffffffffd), (2, 0xffffffffffffffffffffffffffffffffffffffffffffffffffffffffffffffff), (3, 0xffffffffffffffffffffffffffffffffffffffffffffffffffffffffffffffff)]) 0x07022180)
    (fun t => t.reg 1 == 4) = true := by decide

theorem test_D12_subp_exact_difference : nexts (run (withRegs [(31, 97), (2, 5), (3, 9)]) 0x09022180)
    (fun t => t.reg 1 == 93) = true := by decide

theorem test_D11_subp : nexts (run (withRegs [(31, 0x7FFFFFFFFFFFFFFFFFFFFFFFFFFFFFFFFFFFFFFFFFFFFFFFFFFFFFFFFFFFFFED), (2, 3), (3, 5)]) 0x09022180)
    (fun t => t.reg 1 == 0x7fffffffffffffffffffffffffffffffffffffffffffffffffffffffffffffeb) = true := by decide

theorem test_D15_mulp : nexts (run (withRegs [(31, 0xffffffffffffffffffffffffffffffffffffffffffffffffffffffffffffffff), (2, 0xfffffffffffffffffffffffffffffffffffffffffffffffffffffffffffffffe), (3, 0xfffffffffffffffffffffffffffffffffffffffffffffffffffffffffffffffe)]) 0x0B022180)
    (fun t => t.reg 1 == 1) = true := by decide

theorem test_D16_mulp_writes_modulus : nexts (run (withRegs [(31, 97), (2, 50), (3, 60)]) 0x0B3E2180)
    (fun t => t.reg 31 == 90) = true := by decide

theorem test_D17_redp : nexts (run (withRegs [(31, 0x7FFFFFFFFFFFFFFFFFFFFFFFFFFFFFFFFFFFFFFFFFFFFFFFFFFFFFFFFFFFFFED), (2, 1), (3, 5)]) 0x0D022180)
    (fun t => t.reg 1 == 43) = true := by decide

theorem test_D19_redp_largest : nexts (run (withRegs [(31, 0xFFFFFFFF00000001000000000000000000000000FFFFFFFFFFFFFFFFFFFFFFFF), (2, 0xffffffffffffffffffffffffffffffffffffffffffffffffffffffffffffffff), (3, 0xffffffffffffffffffffffffffffffffffffffffffffffffffffffffffffffff)]) 0x0D022180)
    (fun t => t.reg 1 == 0x4FFFFFFFDFFFFFFFFFFFFFFFEFFFFFFFBFFFFFFFF0000000000000002) = true := by decide

theorem test_D20_addp_zero_modulus :
    faults (run (withRegs [(2, 1), (3, 2)]) 0x07022180) (.zeroModulus 0x8000) = true := by
  decide

/-! ### Loads and stores (V-E) -/

/-- The words of E1 from `a` on, least significant first: word `k` is 0x11111111 * (k + 1). -/
def blockE1 : Val := 0x8888888877777777666666665555555544444444333333332222222211111111

/-- A machine with the block of E1 at 0x0100. -/
def stateE (l : List (RegNo × Val)) : State :=
  let s := withRegs l
  { s with
    mem := s.mem.setBlock s.byteOrder 0x0100 blockE1
    readable := [⟨0x0100, 0x01FF⟩, ⟨0xFFE0, 0xFFFF⟩]
    writable := [⟨0x0100, 0x01FF⟩, ⟨0xFFE0, 0xFFFF⟩] }

theorem test_E1_words_of_the_block : (List.range 8).all (fun k =>
    (stateE []).mem.getWord .little (0x0100 + 4 * k) == BitVec.ofNat 32 (0x11111111 * (k + 1)))
    = true := by decide

theorem test_E1_ld : nexts (run (stateE [(1, 5)]) 0x43420100) (fun t => t.reg 1 == blockE1) = true := by
  decide

theorem test_E2_st : nexts (run (stateE [(1, blockE1)]) 0x45420120) (fun t => (List.range 8).all fun k =>
    t.mem.getWord .little (0x0120 + 4 * k) == BitVec.ofNat 32 (0x11111111 * (k + 1)))
    = true := by decide +kernel

theorem test_E3_ldr_word_aligned :
    nexts (run (let s := stateE [(2, 0x0104)]
      { s with mem := s.mem.setWord .little 0x0120 0xAAAAAAAA }) 0x03422000)
    (fun t => t.reg 1 == 0xAAAAAAAA88888888777777776666666655555555444444443333333322222222)
    = true := by decide

theorem test_E4_str_data_is_address : nexts (run (stateE [(1, 0x0140)]) 0x05421000)
    (fun t => t.mem.getBlock .little 0x0140 == 0x0140 && t.mem.getBlock .little 0x0100 == blockE1)
    = true := by decide +kernel

theorem test_E6_ld_past_the_top :
    faults (run (stateE []) 0x4342FFE4) (.addressOutOfRange 0x8000 0x10000) = true := by decide

theorem test_E9_ldr_whole_register : faults (run (stateE [(2, 2 ^ 255 + 0x100)]) 0x03422000)
    (.addressOutOfRange 0x8000 (2 ^ 255 + 0x100)) = true := by decide +kernel

theorem test_E10_st_partly_admitted :
    faults (run (stateE [(1, 1)]) 0x454201F0) (.accessNotAdmitted 0x8000 0x0200) = true := by
  decide

/-! ### Moves and swaps (V-F) -/

theorem test_F1_mov_writes_no_flag : nexts (run (withRegs [(1, 7)]) 0x03822000)
    (fun t => t.reg 1 == 0 && !t.flagZ) = true := by decide

theorem test_F2_movi_clears_high_bits : nexts (run (withRegs [(1, 0xffffffffffffffffffffffffffffffffffffffffffffffffffffffffffffffff)]) 0x23820FFF)
    (fun t => t.reg 1 == 0xFFF) = true := by decide

theorem test_F4_cswap : nexts (run { withRegs [(1, 0xAA), (2, 0xBB)] with flagC := true } 0x05822000)
    (fun t => t.reg 1 == 0xBB && t.reg 2 == 0xAA) = true := by decide

theorem test_F5_cswap_not : nexts (run (withRegs [(1, 0xAA), (2, 0xBB)]) 0x05822000)
    (fun t => t.reg 1 == 0xAA && t.reg 2 == 0xBB) = true := by decide

theorem test_F6_zswap : nexts (run { withRegs [(1, 0xAA), (2, 0xBB)] with flagZ := true } 0x07822000)
    (fun t => t.reg 1 == 0xBB && t.reg 2 == 0xAA) = true := by decide

/-! ### Control transfer (V-G) -/

/-- Reset with RAR and the flags given. -/
def stateG (rar : List Addr) (z c e : Bool) : State :=
  { State.reset with rar := rar, flagZ := z, flagC := c, flagE := e }

theorem test_G1_call : nexts (run (stateG [] false false false) 0x62008010)
    (fun t => t.pc == 0x8010 && t.rar == [0x8004]) = true := by decide

theorem test_G2_call_full : faults (run (stateG [0x8104, 0x8204, 0x8304, 0x8404] false false false) 0x62008010)
    (.rarOverflow 0x8000) = true := by decide

theorem test_G4_ret : nexts (run (stateG [0x8104, 0x8204] false false false) 0x64000000)
    (fun t => t.pc == 0x8104 && t.rar == [0x8204]) = true := by decide

theorem test_G5_ret_empty : faults (run (stateG [] false false false) 0x64000000)
    (.rarUnderflow 0x8000) = true := by decide

theorem test_G6_brz_taken : nexts (run (stateG [] true false false) 0x66008020)
    (fun t => t.pc == 0x8020) = true := by decide

theorem test_G7_brz_not_taken : nexts (run (stateG [] false true true) 0x66008020)
    (fun t => t.pc == 0x8004) = true := by decide

theorem test_G8_brnz_taken : nexts (run (stateG [] false true true) 0x68008020)
    (fun t => t.pc == 0x8020) = true := by decide

theorem test_G9_brnz_not_taken : nexts (run (stateG [] true false false) 0x68008020)
    (fun t => t.pc == 0x8004) = true := by decide

theorem test_G10_brc_taken : nexts (run (stateG [] false true false) 0x6A008020)
    (fun t => t.pc == 0x8020) = true := by decide

theorem test_G11_brc_not_taken : nexts (run (stateG [] true false true) 0x6A008020)
    (fun t => t.pc == 0x8004) = true := by decide

theorem test_G12_brnc_taken : nexts (run (stateG [] true false true) 0x6C008020)
    (fun t => t.pc == 0x8020) = true := by decide

theorem test_G13_brnc_not_taken : nexts (run (stateG [] false true false) 0x6C008020)
    (fun t => t.pc == 0x8004) = true := by decide

theorem test_G14_bre_taken : nexts (run (stateG [] false false true) 0x6E008020)
    (fun t => t.pc == 0x8020) = true := by decide

theorem test_G15_bre_not_taken : nexts (run (stateG [] true true false) 0x6E008020)
    (fun t => t.pc == 0x8004) = true := by decide

theorem test_G16_brne_taken : nexts (run (stateG [] true true false) 0x70008020)
    (fun t => t.pc == 0x8020) = true := by decide

theorem test_G17_brne_not_taken : nexts (run (stateG [] false false true) 0x70008020)
    (fun t => t.pc == 0x8004) = true := by decide

theorem test_G18_misaligned_target : faults (run (stateG [] true false false) 0x66008022)
    (.misalignedTarget 0x8000 0x8022) = true := by decide

theorem test_G20_jmp : nexts (run (stateG [] false false false) 0x72000000)
    (fun t => t.pc == 0) = true := by decide

theorem test_G22_nop : nexts (run (stateG [] true true true) 0x76000000)
    (fun t => t.pc == 0x8004 && t.flagZ && t.flagC && t.flagE) = true := by decide

theorem test_G23_end : nexts (run (stateG [0x8104] false false false) 0x74000000)
    (fun t => t.pc == 0x8000 && t.rar == [0x8104] && t.statusDone && t.run == .done) = true := by decide

/-! ### The hash unit (V-H) -/

theorem test_H1_hash_it : nexts (run State.reset 0x25800000) (fun t => t.sha ==
    0x6A09E667F3BCC908BB67AE8584CAA73B3C6EF372FE94F82BA54FF53A5F1D36F1510E527FADE682D19B05688C2B3E6C1F1F83D9ABFB41BD6B5BE0CD19137E2179)
    = true := by decide +kernel

/-- H4: the destination pair R5, R6 overlaps the source group R4..R7. -/
theorem test_H4_hash_overlap :
    nexts (run { withRegs [(4, 0x18), (7, 0x6162638000000000000000000000000000000000000000000000000000000000)]
      with sha := sha512Init } 0x098A4000)
    (fun t => t.reg 6 == 0xDDAF35A193617ABACC417349AE20413112E6FA4E89A97EA20A9EEEE64B55D39A &&
      t.reg 5 == 0x2192992A274FC1A836BA3C23A3FEEBBD454D4423643CE80E2A9AC94FA54CA49F)
    = true := by decide +kernel

/-- H5, its second block, from the state after the first. -/
theorem test_H5_hash_second_block :
    nexts (run { withRegs [(4, 0x380)] with sha :=
      0x4319017A2B706E69CD4B05938BAE5E890186BF199F30AA956EF8B71D2F810585D787D6764B20BDA2A26014470973692000EC057F37D14B8E06ADD5B50E671C72 }
      0x09824000)
    (fun t => t.reg 2 == 0x8E959B75DAE313DA8CF4F72814FC143F8F7779C6EB9F7FA17299AEADB6889018 &&
      t.reg 1 == 0x501D289E4900F7E4331B99DEC4B5433AC7D329EEB6DD26545E96E55B874BE909)
    = true := by decide +kernel

/-! ### TMAC, random value, scalar blinding (V-I): which function of which arguments -/

theorem test_I1_tmac_it (s : State) : exec (.tmacIt 4) s =
    .next (s.setTmac (Config.tmacInit (s.reg 7 ++ s.reg 6 ++ s.reg 5 ++ s.reg 4))).advance := rfl

theorem test_I2_tmac_is (s : State) : exec (.tmacIs 2 0x0A) s =
    .next (s.setTmac (Config.tmacInitstr s.tmac (s.reg 2) 0x0A)).advance := rfl

theorem test_I3_tmac_up : exec (.tmacUp 3) (withRegs [(3, 2 ^ 200 + 0x55)]) =
    .next ((withRegs [(3, 2 ^ 200 + 0x55)]).setTmac (Config.tmacUpdate 0 0x55)).advance := by
  have h : tmacBlock ((withRegs [(3, 2 ^ 200 + 0x55)]).reg 3) = 0x55 := by decide +kernel
  show Host.Outcome.next (State.advance (State.setTmac _ (Config.tmacUpdate _ (tmacBlock _)))) = _
  rw [h]
  rfl

theorem test_I4_tmac_rd (s : State) : exec (.tmacRd 1) s =
    .next (((s.setReg 1 (Config.tmacResult s.tmac)).setTmac (Config.tmacAfterRd s.tmac)).advance) := rfl

theorem test_I7_grv (s : State) : exec (.grv 4) s =
    .next (({ s.setReg 4 (Config.randomDraw s.draws) with draws := s.draws + 1 } : State).advance) := rfl

theorem test_I9_scb (s : State) : exec (.scb 1 2 3) s =
    .next (((s.setReg 1 ((Config.blind (s.reg 2) (s.reg 3) (s.reg 31)).extractLsb' 0 256)).setReg 2
      ((Config.blind (s.reg 2) (s.reg 3) (s.reg 31)).extractLsb' 256 256)).advance) := rfl

theorem test_I11_scb_group : exec (.scb 31 2 3) State.reset =
    .fault (.registerIndexOutOfRange 0x8000) := rfl

/-! ### Key bus (V-K): which request is issued -/

theorem test_K1_ldk : (nexts (exec (.ldk 1 2 0x403) (withRegs [(2, 0x1234)])) fun t =>
    t.flagE == (Config.kbusRead [] 4 0x34 24).1 && t.reg 1 == (Config.kbusRead [] 4 0x34 24).2 &&
      t.kbusLog == [.read 4 0x34 24 (Config.kbusRead [] 4 0x34 24).1 (Config.kbusRead [] 4 0x34 24).2])
    = true := by
  have h1 : keySlot ((withRegs [(2, 0x1234)]).reg 2) = 0x34 := by decide
  have h2 : keyType 0x403 = 4 ∧ keyOffset 0x403 = 24 ∧ keyImmOk 0x403 = true := by decide
  simp only [nexts, exec, execLdk, h1, h2.1, h2.2.1, h2.2.2, if_true]
  simp [State.endRequest, errorFlag, State.advance, State.setE, State.logKbus, State.setReg, State.reg,
    withRegs, State.reset]

theorem test_K4_stk (s : State) : exec (.stk 1 2 0x403) s =
    .next (s.endRequest (.write (s.reg 1) 4 (keySlot (s.reg 2)) 24
      (Config.kbusWrite s.kbusLog (s.reg 1) 4 (keySlot (s.reg 2)) 24))
      (Config.kbusWrite s.kbusLog (s.reg 1) 4 (keySlot (s.reg 2)) 24)) := rfl

theorem test_K6_kbo (s : State) : exec (.kbo 2 0x402) s =
    .next (s.endRequest (.op 4 (keySlot (s.reg 2)) 2 (Config.kbusOp s.kbusLog 4 (keySlot (s.reg 2)) 2))
      (Config.kbusOp s.kbusLog 4 (keySlot (s.reg 2)) 2)) := rfl

/-! ### Witnesses: for each obligation with hypotheses, states and operands that meet them -/

/-- Reset with the word loaded at the pc. -/
def loaded (w : Nat) : State := State.reset.withFetchWord 32 w

/-- EncodeDecodeAgree, under each parity mode. -/
theorem witness_EncodeDecodeAgree : decode .none 0x82422180 = .ok (.add 1 2 3) ∧
    decode .even 0x02422180 = .ok (.add 1 2 3) ∧ decode .odd 0x82422180 = .ok (.add 1 2 3) := by decide

theorem witness_SelectorsAreDistinct :
    (0x026AA980 : Word) &&& selectMask = (encRow .add).pattern &&& selectMask := by decide

theorem witness_IllegalSelectorFaults : (loaded 0x08400000).run = .running ∧
    (loaded 0x08400000).fetch = some 0x08400000 ∧
    parityOk (loaded 0x08400000).parityMode 0x08400000 = true ∧
    (∀ o : Op, (0x08400000 : Word) &&& selectMask ≠ (encRow o).pattern) ∧
    (0x61FFFFFF : Word).extractLsb' 25 4 = 0 := by
  refine ⟨by decide, by decide, by decide, ?_, by decide⟩
  intro o
  cases o <;> decide

theorem witness_UnusedBitFaults : (loaded 0x02422181).run = .running ∧
    (loaded 0x02422181).fetch = some 0x02422181 ∧
    parityOk (loaded 0x02422181).parityMode 0x02422181 = true ∧
    (0x02422181 : Word) &&& selectMask = (encRow .add).pattern ∧
    (0x02422181 : Word) &&& (encRow .add).mask ≠ (encRow .add).pattern := by decide

/-- ParityBitRules, even and odd. -/
theorem witness_ParityBitRules :
    (∃ s : State, s.run = .running ∧ s.fetch = some 0x23820005 ∧ s.parityMode = .even ∧
      xorBits 0x23820005 32 = true) ∧
    (∃ s : State, s.run = .running ∧ s.fetch = some 0x02422180 ∧ s.parityMode = .odd ∧
      xorBits 0x02422180 32 = false) :=
  ⟨⟨{ loaded 0x23820005 with parityMode := .even }, by decide⟩,
    ⟨{ loaded 0x02422180 with parityMode := .odd }, by decide⟩⟩

/-- StepRunsDecodedInstruction: an instruction that completes and one that faults. -/
theorem witness_StepRunsDecodedInstruction :
    ((loaded 0x76000000).run = .running ∧ (loaded 0x76000000).fetch = some 0x76000000 ∧
      decode (loaded 0x76000000).parityMode 0x76000000 = .ok .nop ∧
      nexts (exec .nop (loaded 0x76000000)) (fun _ => true) = true) ∧
    ((loaded 0x64000000).run = .running ∧ (loaded 0x64000000).fetch = some 0x64000000 ∧
      decode (loaded 0x64000000).parityMode 0x64000000 = .ok .ret ∧
      exec .ret (loaded 0x64000000) = .fault (.rarUnderflow 0x8000)) :=
  ⟨by decide, by decide, by decide, by decide, faults_eq (by decide)⟩

/-- ProgramMemoryRules, at 0xFFFC and above it too. -/
theorem witness_ProgramMemoryRules :
    (State.reset.run = .running ∧ State.reset.imem.word State.reset.pcValue = none) ∧
    nexts (step (loaded 0x76000000)) (fun _ => true) = true ∧
    (({ State.reset with pc := 0xFFFC }.withFetchWord 32 0).imem.word 0xFFFC).isSome = true := by decide

/-- RunStatusRules: a step that faults, and states that have no step. -/
theorem witness_RunStatusRules : step (loaded 0) = .fault (.illegalInstruction 0x8000 0) ∧
    ({ State.reset with run := .done } : State).run ≠ .running ∧
    ({ State.reset with run := .faulted (.rarUnderflow 0) } : State).run ≠ .running :=
  ⟨faults_eq (by decide), by decide, by decide⟩

/-- SequentialAdvance: an instruction outside the list, the six branches not taken, the top of memory. -/
theorem witness_SequentialAdvance :
    (Instr.op .nop ∉ [.call, .ret, .jmp, .endFw, .brz, .brnz, .brc, .brnc, .bre, .brne] ∧
      nexts (exec .nop State.reset) (fun _ => true) = true) ∧
    (nexts (exec (.brz 2) (stateG [] false false false)) (fun _ => true) &&
      nexts (exec (.brnz 2) (stateG [] true false false)) (fun _ => true) &&
      nexts (exec (.brc 2) (stateG [] false false false)) (fun _ => true) &&
      nexts (exec (.brnc 2) (stateG [] false true false)) (fun _ => true) &&
      nexts (exec (.bre 2) (stateG [] false false false)) (fun _ => true) &&
      nexts (exec (.brne 2) (stateG [] false false true)) (fun _ => true)) = true ∧
    nexts (step ({ State.reset with pc := 0xFFFC }.withFetchWord 32 0x76000000))
      (fun t => t.run == .running && t.pcValue == 0x10000) = true := by decide

theorem witness_InvariantKeptByStep : (loaded 0x62008010).Inv ∧
    nexts (step (loaded 0x62008010)) (fun t => t.rar == [0x8004]) = true := by decide

theorem witness_PlatformFixedDuringRun :
    nexts (step (loaded 0x45420100)) (fun _ => true) = true := by decide

/-- FaultReasonsByInstruction: every reason is raised by some instruction. -/
theorem witness_FaultReasonsByInstruction :
    exec (.call 0) { State.reset with pc := 0xFFFC } = .fault (.fetchOutOfRange 0xFFFC) ∧
    exec (.ldk 1 2 0x020) State.reset = .fault (.illegalInstruction 0x8000 0) ∧
    exec (.scb 31 2 3) State.reset = .fault (.registerIndexOutOfRange 0x8000) ∧
    exec (.addp 1 2 3) State.reset = .fault (.zeroModulus 0x8000) ∧
    exec (.ld 1 0xFFE4) State.reset = .fault (.addressOutOfRange 0x8000 0x10000) ∧
    exec (.st 1 0x0102) State.reset = .fault (.misalignedAccess 0x8000 0x0102) ∧
    exec (.ld 1 0x01F0) (stateE []) = .fault (.accessNotAdmitted 0x8000 0x0200) ∧
    exec (.jmp 2) State.reset = .fault (.misalignedTarget 0x8000 2) ∧
    exec (.call 0) { State.reset with rar := [0, 4, 8, 12] } = .fault (.rarOverflow 0x8000) ∧
    exec .ret State.reset = .fault (.rarUnderflow 0x8000) :=
  ⟨rfl, rfl, rfl, rfl, faults_eq (by decide), faults_eq (by decide), faults_eq (by decide), rfl, rfl, rfl⟩

/-- ZeroFlagRule and CarryFlagRule: instructions that write the flag and one that does not. -/
theorem witness_ZeroFlagRule_CarryFlagRule :
    (nexts (exec (.add 1 2 3) State.reset) (fun _ => true) &&
      nexts (exec (.cmp 2 3) State.reset) (fun _ => true) &&
      nexts (exec (.cmpi 2 0xFFF) State.reset) (fun _ => true) &&
      nexts (exec (.lsl 1 2) State.reset) (fun _ => true) &&
      nexts (exec (.ror 1 2) State.reset) (fun _ => true) &&
      nexts (exec (.sbit 1 2 3) State.reset) (fun _ => true)) = true := by decide

/-- ErrorFlagRule: LDK, STK, KBO, and one that does not write E. -/
theorem witness_ErrorFlagRule :
    (∃ t, exec (.ldk 1 2 0xF1F) State.reset = .next t) ∧
    (∃ t, exec (.stk 1 2 0xF1F) State.reset = .next t) ∧
    (∃ t, exec (.kbo 2 0xF0F) State.reset = .next t) ∧
    (∃ t, exec .nop State.reset = .next t) := ⟨⟨_, rfl⟩, ⟨_, rfl⟩, ⟨_, rfl⟩, ⟨_, rfl⟩⟩

/-- OnlyLoadsAndStoresReachMemory, OnlyCallAndRetTouchRar, OnlyHashInstructionsTouchSha and
OnlyTmacInstructionsTouchTmac: an instruction outside each list that completes and one that faults. -/
theorem witness_OnlyTouch :
    Instr.op (.addp 1 2 3) ∉ [.ldr, .ld, .str, .st] ∧ Instr.op (.addp 1 2 3) ∉ [.call, .ret] ∧
    Instr.op (.addp 1 2 3) ∉ [.hash, .hashIt] ∧
    Instr.op (.addp 1 2 3) ∉ [.tmacIt, .tmacIs, .tmacUp, .tmacRd] ∧
    exec (.addp 1 2 3) State.reset = .fault (.zeroModulus 0x8000) ∧
    nexts (exec (.addp 1 2 3) (withRegs [(31, 1)])) (fun _ => true) = true :=
  ⟨by decide, by decide, by decide, by decide, faults_eq (by decide), by decide⟩

theorem witness_StatusDoneRule : (∃ t, exec .endFw State.reset = .next t) ∧
    Instr.nop ≠ .endFw ∧ (∃ t, exec .nop State.reset = .next t) ∧
    (∃ f, exec .ret State.reset = .fault f) := ⟨⟨_, rfl⟩, by decide, ⟨_, rfl⟩, ⟨_, rfl⟩⟩

/-- ConditionalSwapResults: each flag 1 and 0. -/
theorem witness_ConditionalSwapResults : (stateG [] true true false).flagC = true ∧
    (stateG [] true true false).flagZ = true ∧ (stateG [] false false false).flagC = false ∧
    (stateG [] false false false).flagZ = false := by decide

/-- GenericModularResults: the smallest modulus; ZeroModulusFaults: no modulus. -/
theorem witness_GenericModularResults_ZeroModulusFaults : (withRegs [(31, 1)]).reg 31 ≠ 0 ∧
    State.reset.reg 31 = 0 := by decide

/-- LoadResults: the highest and the lowest address, from a register and from the word. -/
theorem witness_LoadResults : (withRegs [(2, 0xFFE0)]).CanRead ((withRegs [(2, 0xFFE0)]).reg 2).toNat ∧
    State.reset.CanRead (0 : Addr).toNat ∧ (stateE []).CanRead (0xFFE0 : Addr).toNat := by
  unfold State.CanRead
  decide

/-- StoreResults: the highest and the lowest address, from a register and from the word. -/
theorem witness_StoreResults :
    (withRegs [(2, 0xFFE0)]).CanWrite ((withRegs [(2, 0xFFE0)]).reg 2).toNat ∧
    State.reset.CanWrite (0 : Addr).toNat ∧ (stateE []).CanWrite (0xFFE0 : Addr).toNat := by
  unfold State.CanWrite
  decide

/-- AccessFaultOrder: out of range at the first and at the last word, misaligned, not admitted at the
fifth word. -/
theorem witness_AccessFaultOrder :
    0xFFFC < (0x10000 : Nat) + 4 * 0 ∧
    ((∀ j < 7, 0xFFE4 + 4 * j ≤ 0xFFFC ∧ (0xFFE4 + 4 * j) % 4 = 0 ∧
      State.reset.readAdmitted (0xFFE4 + 4 * j) = true) ∧ 0xFFFC < 0xFFE4 + 4 * 7) ∧
    (0xFFFA + 4 * 0 ≤ 0xFFFC ∧ (0xFFFA + 4 * 0) % 4 ≠ 0) ∧
    ((∀ j < 4, 0x01F0 + 4 * j ≤ 0xFFFC ∧ (0x01F0 + 4 * j) % 4 = 0 ∧
      (stateE []).writeAdmitted (0x01F0 + 4 * j) = true) ∧
      (stateE []).writeAdmitted (0x01F0 + 4 * 4) = false) := by decide

/-- ProgramTextIsOutOfReach: LD, ST, LDR and STR that complete. -/
theorem witness_ProgramTextIsOutOfReach :
    (nexts (exec (.ld 1 0x100) (loaded 0)) (fun _ => true) &&
      nexts (exec (.st 1 0x100) (loaded 0)) (fun _ => true) &&
      nexts (exec (.ldr 1 2) (loaded 0)) (fun _ => true) &&
      nexts (exec (.str 1 2) (loaded 0)) (fun _ => true)) = true := by decide

theorem witness_LoadSeesLastStore :
    nexts (exec (.st 1 0xFFE0) (withRegs [(1, 7), (2, 0xFFE0)])) (fun _ => true) = true ∧
    (withRegs [(1, 7), (2, 0xFFE0)]).CanRead (0xFFE0 : Addr).toNat ∧
    ((withRegs [(1, 7), (2, 0xFFE0)]).reg 2).toNat = (0xFFE0 : Addr).toNat := by
  unfold State.CanRead
  decide

/-- HashResults, RegisterGroupRules, TmacResults and BlindScalarResult: the last register groups that are
legal, the first that are not, and the largest N. -/
theorem witness_RegisterGroups : (30 : RegNo).toNat ≤ 30 ∧ (28 : RegNo).toNat ≤ 28 ∧
    28 < (29 : RegNo).toNat ∧ 30 < (31 : RegNo).toNat ∧ (0x0FF : Imm).toNat < 256 := by decide

theorem witness_HashOfAbc : ∃ s : State, s.reg 4 = 0x18 ∧ s.reg 5 = 0 ∧ s.reg 6 = 0 ∧
    s.reg 7 = 0x6162638000000000000000000000000000000000000000000000000000000000 :=
  ⟨withRegs [(4, 0x18), (7, 0x6162638000000000000000000000000000000000000000000000000000000000)],
    by decide⟩

/-- KeyBusResults and UnnamedImmediateBitsFault: the largest Immediates that are legal, and each unnamed
bit at the ends of its range. -/
theorem witness_KeyBusImmediates : (0xF1F : Imm) &&& 0x0E0 = 0 ∧ (0xF0F : Imm) &&& 0x0F0 = 0 ∧
    (0x020 : Imm) &&& 0x0E0 ≠ 0 ∧ (0x080 : Imm) &&& 0x0E0 ≠ 0 ∧ (0x010 : Imm) &&& 0x0F0 ≠ 0 ∧
    (0x080 : Imm) &&& 0x0F0 ≠ 0 ∧ (0x100 : Imm) &&& 0xF00 ≠ 0 ∧ (0x800 : Imm) &&& 0xF00 ≠ 0 ∧
    (loaded 0x23C22420).fetch = some 0x23C22420 := by decide

/-- ConditionalBranchResults: both values of each flag, a target that is a multiple of 4 and one that is
not. -/
theorem witness_ConditionalBranchResults :
    (stateG [] true true true).flagZ = true ∧ (stateG [] true true true).flagC = true ∧
    (stateG [] true true true).flagE = true ∧ (stateG [] false false false).flagZ = false ∧
    (stateG [] false false false).flagC = false ∧ (stateG [] false false false).flagE = false ∧
    (0xFFFC : Addr).toNat % 4 = 0 ∧ (0xFFFD : Addr).toNat % 4 ≠ 0 := by decide

/-- JumpResults: the lowest and the highest target, and one that is no multiple of 4. -/
theorem witness_JumpResults : (0 : Addr).toNat % 4 = 0 ∧ (0xFFFC : Addr).toNat % 4 = 0 ∧
    (0xFFFF : Addr).toNat % 4 ≠ 0 := by decide

/-- CallResults: the last pc a CALL can return to, and a RAR with one place left; the first pc it cannot;
a target that is no multiple of 4; a full RAR; an empty RAR of the least depth. -/
theorem witness_CallResults :
    (∃ s : State, s.pcValue + 4 ≤ 0xFFFC ∧ s.pcValue + 4 = 0xFFFC ∧ (0 : Addr).toNat % 4 = 0 ∧
      s.rar.length < s.rarDepth.val) ∧
    (∃ s : State, 0xFFFC < s.pcValue + 4) ∧
    (State.reset.pcValue + 4 ≤ 0xFFFC ∧ (2 : Addr).toNat % 4 ≠ 0) ∧
    (∃ s : State, s.pcValue + 4 ≤ 0xFFFC ∧ s.rar.length = s.rarDepth.val) ∧
    (∃ s : State, s.pcValue + 4 ≤ 0xFFFC ∧ (0xFFFC : Addr).toNat % 4 = 0 ∧ s.rar = [] ∧ s.rarDepth.val = 1) :=
  ⟨⟨{ State.reset with pc := 0xFFF8, rar := [0, 4, 8] }, by decide⟩,
    ⟨{ State.reset with pc := 0xFFFC }, by decide⟩, by decide,
    ⟨{ State.reset with rar := [0, 4, 8, 12] }, by decide⟩,
    ⟨{ State.reset with rarDepth := ⟨1, by decide⟩ }, by decide⟩⟩

/-- ReturnResults: an entry that is a multiple of 4, one that is not, and an empty RAR. -/
theorem witness_ReturnResults :
    (∃ s : State, s.rar = 0x8104 :: [] ∧ (0x8104 : Addr).toNat % 4 = 0) ∧
    (∃ s : State, s.rar = 0x8105 :: [] ∧ (0x8105 : Addr).toNat % 4 ≠ 0) ∧ State.reset.rar = [] :=
  ⟨⟨stateG [0x8104] false false false, by decide⟩, ⟨stateG [0x8105] false false false, by decide⟩,
    by decide⟩

/-- ReturnComesBackAfterCall, with the state after the CALL as the later state. -/
theorem witness_ReturnComesBackAfterCall : State.reset.PcInv ∧
    ∃ t, exec (.call 0x8010) State.reset = .next t ∧ t.rar = t.rar := ⟨by decide, _, rfl, rfl⟩

end Sys2Proof.Tests
end

/-! PROOFS. Z and C (R28, R29): what each shared result writes into a flag, that every instruction outside a
flag's F column leaves it alone, and the two statements assembled from these. -/

namespace Sys2Proof.Machine

/-! ### Zero tests and what they read -/

theorem isZero_iff {n : Nat} (v : BitVec n) : isZero v = true ↔ v = 0 := by
  simp [isZero]

theorem isZero_sub_iff {n : Nat} (v w : BitVec n) : isZero (v - w) = true ↔ v.toNat = w.toNat := by
  rw [isZero_iff, BitVec.toNat_inj]
  exact sub_eq_zero

@[simp] theorem low32_toNat (v : Val) : (low32 v).toNat = v.toNat % 2 ^ 32 := by
  simp [low32]

@[simp] theorem immWord_toNat (imm : Imm) : (immWord imm).toNat = imm.toNat := by
  simp only [immWord, BitVec.toNat_setWidth]
  omega

/-! ### What the shared results leave in Z and C -/

variable {s t : State}

theorem State.writeResultZ_flagZ_iff (d : RegNo) (v : Val) :
    (s.writeResultZ d v).flagZ = true ↔ (s.writeResultZ d v).reg d = 0 := by
  simp [State.writeResultZ, isZero_iff]

theorem State.compareResult_sub_flagZ_iff (v w : Word) :
    (s.compareResult (v - w)).flagZ = true ↔ v.toNat = w.toNat := by
  simp [State.compareResult, isZero_sub_iff]

@[simp] theorem State.writeResultC_flagC (d : RegNo) (v : Val) (c : Bool) :
    (s.writeResultC d v c).flagC = c := rfl

/-! ### Every other instruction leaves the flag alone -/

/-- R28: of the shapes a next state can have, only a result with Z and a comparison touch Z. -/
theorem exec_keeps_flagZ {i : Instr} (h : exec i s = .next t)
    (hres : i.op ∉ [.add, .sub, .and, .or, .xor, .not, .addi, .subi, .andi, .ori, .xori])
    (hcmp : i.op ∉ [.cmp, .cmpi]) : t.flagZ = s.flagZ := by
  cases exec_shape i h
  case zero hop => exact absurd hop hres
  case compare hop => exact absurd hop hcmp
  all_goals rfl

/-- R29: of the shapes a next state can have, only a result with C touches C. -/
theorem exec_keeps_flagC {i : Instr} (h : exec i s = .next t)
    (hshift : i.op ∉ [.lsl, .lsr, .rol, .ror]) : t.flagC = s.flagC := by
  cases exec_shape i h
  case carry hop => exact absurd hop hshift
  all_goals rfl

end Sys2Proof.Machine

namespace Sys2Proof.Proofs

open Sys2Proof.Machine

/-- Settles O18: the instructions of the F column end in a result with Z or in a comparison, the others keep
Z. -/
theorem zeroFlagRule : Obligations.ZeroFlagRule := by
  intro i s t h
  cases i
  case add | sub | and | or | xor | not | addi | subi | andi | ori | xori =>
    cases h
    exact State.writeResultZ_flagZ_iff _ _
  case cmp a b =>
    cases h
    simpa using State.compareResult_sub_flagZ_iff (low32 (s.reg a)) (low32 (s.reg b))
  case cmpi a imm =>
    cases h
    simpa using State.compareResult_sub_flagZ_iff (low32 (s.reg a)) (immWord imm)
  all_goals exact exec_keeps_flagZ h (by simp [Instr.op]) (by simp [Instr.op])

/-- Settles O19: the two shifts and two rotations end in a result with C, the others keep C. -/
theorem carryFlagRule : Obligations.CarryFlagRule := by
  intro i s t h
  cases i
  case lsl | rol | lsr | ror =>
    cases h
    exact State.writeResultC_flagC _ _ _
  all_goals exact exec_keeps_flagC h (by simp [Instr.op])

end Sys2Proof.Proofs

/-! PROOFS. The immediate logic instructions (R224 to R227): the frame of a result with Z, the bits of a value
whose low 12 were replaced, and the statement assembled from these. -/

namespace Sys2Proof.Machine

variable {s : State}

/-! ### A result with Z: the register written and the frame -/

@[simp] theorem State.writeResultZ_reg (d : RegNo) (v : Val) : (s.writeResultZ d v).reg d = v := by
  simp [State.writeResultZ]

theorem State.writeResultZ_onlyRegs (d : RegNo) (v : Val) : OnlyRegs [d] s (s.writeResultZ d v) := by
  refine ⟨fun r hr => ?regs, fun _ => rfl, ?rest, State.advance_pcValue _⟩
  case regs => exact State.setReg_reg_other s d r v (by simpa using hr)
  case rest => simp [SameRest, SameUnits, SameOutside, SameStatus, SamePlatform, State.writeResultZ]

/-! ### The low 12 bits of a value -/

theorem low12_getLsbD {k : Nat} (v : Val) (hk : k < 12) : (low12 v).getLsbD k = v.getLsbD k := by
  simp [low12, hk]

/-- R224: bits 11..0 are the new ones, bits 255..12 pass through. -/
theorem withLow12_getLsbD {k : Nat} (v : Val) (l : BitVec 12) (hk : k < 256) :
    (withLow12 v l).getLsbD k = if k < 12 then l.getLsbD k else v.getLsbD k := by
  rw [withLow12, BitVec.getLsbD_append]
  split
  case isTrue => rfl
  case isFalse hge =>
    have hlow : k - 12 < 244 := by omega
    have hback : 12 + (k - 12) = k := by omega
    simp [hlow, hback]

/-- What ANDI, ORI and XORI share (R224): the result of writing `v` to R<d> with its low 12 bits replaced by
`l`, whose bit `k` is `b k`. -/
theorem State.writeResultZ_withLow12 {b : Nat → Bool} {l : BitVec 12} (d : RegNo) (v : Val)
    (hl : ∀ k < 12, l.getLsbD k = b k) :
    let t := s.writeResultZ d (withLow12 v l)
    (∀ k < 256, (t.reg d).getLsbD k = if k < 12 then b k else v.getLsbD k) ∧
      (t.flagZ = true ↔ t.reg d = 0) ∧ t.flagC = s.flagC ∧ t.flagE = s.flagE ∧ OnlyRegs [d] s t := by
  refine ⟨fun k hk => ?bits, State.writeResultZ_flagZ_iff d _, rfl, rfl, State.writeResultZ_onlyRegs d _⟩
  rw [State.writeResultZ_reg, withLow12_getLsbD v l hk]
  split
  case isTrue hlow => exact hl k hlow
  case isFalse => rfl

end Sys2Proof.Machine

namespace Sys2Proof.Proofs

open Sys2Proof.Machine

/-- Settles O31: each of the three is a result with Z that replaces the low 12 bits, and bit `k` of its
replacement is the operation on bit `k` of op2 and of the Immediate. -/
theorem immediateLogicResults : Obligations.ImmediateLogicResults := by
  intro op1 op2 imm s
  refine ⟨⟨_, rfl, State.writeResultZ_withLow12 op1 (s.reg op2) fun k hk => ?andi⟩,
    ⟨_, rfl, State.writeResultZ_withLow12 op1 (s.reg op2) fun k hk => ?ori⟩,
    ⟨_, rfl, State.writeResultZ_withLow12 op1 (s.reg op2) fun k hk => ?xori⟩⟩
  case andi => rw [BitVec.getLsbD_and, low12_getLsbD _ hk]
  case ori => rw [BitVec.getLsbD_or, low12_getLsbD _ hk]
  case xori => rw [BitVec.getLsbD_xor, low12_getLsbD _ hk]

end Sys2Proof.Proofs

/-! PROOFS. Encoding: the operand fields of a word and their places, the row a word selects, when a word
decodes, and bit 31 under the parity modes (R80 to R96). -/

namespace Sys2Proof

/-! ### The operand fields -/

section Fields

variable {l n p q : Nat}

/-- A field read where it was put. -/
theorem extract_placed_same (x : BitVec l) (h : n + l ≤ 32) :
    ((x.setWidth 32 <<< n : Word)).extractLsb' n l = x := by
  ext k hk
  have hin : n + k < 32 ∧ k < 32 := by omega
  simp [hin, BitVec.getLsbD_eq_getElem hk]

/-- A field read outside the place where another was put. -/
theorem extract_placed_apart (x : BitVec l) (h : p + q ≤ n ∨ n + l ≤ p) :
    ((x.setWidth 32 <<< n : Word)).extractLsb' p q = 0 := by
  ext k hk
  have hout : p + k < n ∨ l ≤ p + k - n := by omega
  rcases hout with hlow | hhigh
  · simp [hlow]
  · simp [BitVec.getLsbD_of_ge x _ hhigh]

variable (a : RegNo) (i : Imm) (m : Addr) (v w : Word)

@[simp] theorem fieldOp1_or : fieldOp1 (v ||| w) = fieldOp1 v ||| fieldOp1 w := BitVec.extractLsb'_or
@[simp] theorem fieldOp2_or : fieldOp2 (v ||| w) = fieldOp2 v ||| fieldOp2 w := BitVec.extractLsb'_or
@[simp] theorem fieldOp3_or : fieldOp3 (v ||| w) = fieldOp3 v ||| fieldOp3 w := BitVec.extractLsb'_or
@[simp] theorem fieldImm_or : fieldImm (v ||| w) = fieldImm v ||| fieldImm w := BitVec.extractLsb'_or
@[simp] theorem fieldAddr_or : fieldAddr (v ||| w) = fieldAddr v ||| fieldAddr w := BitVec.extractLsb'_or
@[simp] theorem fieldNewpc_eq : fieldNewpc w = fieldAddr w := rfl

theorem putImm_eq_placed : putImm i = i.setWidth 32 <<< 0 := (BitVec.shiftLeft_zero _).symm
theorem putAddr_eq_placed : putAddr m = m.setWidth 32 <<< 0 := (BitVec.shiftLeft_zero _).symm

@[simp] theorem fieldOp1_putOp1 : fieldOp1 (putOp1 a) = a := extract_placed_same a (by decide)
@[simp] theorem fieldOp1_putOp2 : fieldOp1 (putOp2 a) = 0 := extract_placed_apart a (by decide)
@[simp] theorem fieldOp1_putOp3 : fieldOp1 (putOp3 a) = 0 := extract_placed_apart a (by decide)
@[simp] theorem fieldOp1_putImm : fieldOp1 (putImm i) = 0 :=
  putImm_eq_placed i ▸ extract_placed_apart i (by decide)
@[simp] theorem fieldOp1_putAddr : fieldOp1 (putAddr m) = 0 :=
  putAddr_eq_placed m ▸ extract_placed_apart m (by decide)

@[simp] theorem fieldOp2_putOp1 : fieldOp2 (putOp1 a) = 0 := extract_placed_apart a (by decide)
@[simp] theorem fieldOp2_putOp2 : fieldOp2 (putOp2 a) = a := extract_placed_same a (by decide)
@[simp] theorem fieldOp2_putOp3 : fieldOp2 (putOp3 a) = 0 := extract_placed_apart a (by decide)
@[simp] theorem fieldOp2_putImm : fieldOp2 (putImm i) = 0 :=
  putImm_eq_placed i ▸ extract_placed_apart i (by decide)

@[simp] theorem fieldOp3_putOp1 : fieldOp3 (putOp1 a) = 0 := extract_placed_apart a (by decide)
@[simp] theorem fieldOp3_putOp2 : fieldOp3 (putOp2 a) = 0 := extract_placed_apart a (by decide)
@[simp] theorem fieldOp3_putOp3 : fieldOp3 (putOp3 a) = a := extract_placed_same a (by decide)

@[simp] theorem fieldImm_putOp1 : fieldImm (putOp1 a) = 0 := extract_placed_apart a (by decide)
@[simp] theorem fieldImm_putOp2 : fieldImm (putOp2 a) = 0 := extract_placed_apart a (by decide)
@[simp] theorem fieldImm_putImm : fieldImm (putImm i) = i :=
  putImm_eq_placed i ▸ extract_placed_same i (by decide)

@[simp] theorem fieldAddr_putOp1 : fieldAddr (putOp1 a) = 0 := extract_placed_apart a (by decide)
@[simp] theorem fieldAddr_putAddr : fieldAddr (putAddr m) = m :=
  putAddr_eq_placed m ▸ extract_placed_same m (by decide)

/-- A row's pattern has no bit in an operand field (R82). -/
theorem extract_pattern (r : EncRow) (h : p + q ≤ 22) : r.pattern.extractLsb' p q = 0 := by
  ext k hk
  have hlow : p + k < 22 := by omega
  rw [BitVec.getElem_extractLsb', EncRow.pattern, BitVec.getLsbD_append]
  simp [hlow]

theorem buildInstr_pattern_or (r : EncRow) (o : Op) : buildInstr (r.pattern ||| w) o = buildInstr w o := by
  have h1 : fieldOp1 r.pattern = 0 := extract_pattern r (by decide)
  have h2 : fieldOp2 r.pattern = 0 := extract_pattern r (by decide)
  have h3 : fieldOp3 r.pattern = 0 := extract_pattern r (by decide)
  have hi : fieldImm r.pattern = 0 := extract_pattern r (by decide)
  have ha : fieldAddr r.pattern = 0 := extract_pattern r (by decide)
  cases o <;> simp [buildInstr, h1, h2, h3, hi, ha]

/-- The operand fields of an instruction, read back from their places, are its operands (R95, R96). -/
theorem buildInstr_operandBits (j : Instr) : buildInstr (operandBits j) j.op = j := by
  cases j <;> simp [buildInstr, operandBits, Instr.op]

@[simp] theorem buildInstr_op (o : Op) : (buildInstr w o).op = o := by
  cases o <;> rfl

/-! The other way round: a field read and put back keeps the bits of its place and no other. -/

/-- `c` is the mask of the field at bits `n+l-1 .. n`. -/
theorem placed_extract (c : Word)
    (hc : ∀ k < 32, c.getLsbD k = (decide (n ≤ k) && decide (k < n + l))) :
    (w.extractLsb' n l).setWidth 32 <<< n = w &&& c := by
  ext k hk
  rw [BitVec.getElem_and, ← BitVec.getLsbD_eq_getElem hk (x := c), hc k hk]
  by_cases hlow : n ≤ k
  · have hsum : n + (k - n) = k := by omega
    have hhigh : (k - n < l) = (k < n + l) := by rw [eq_iff_iff]; omega
    simp [hk, hlow, hsum, hhigh, Bool.and_comm, show ¬ k < n by omega]
  · simp [hlow]

theorem putOp1_fieldOp1 : putOp1 (fieldOp1 w) = w &&& 0x003E0000 := placed_extract w _ (by decide)
theorem putOp2_fieldOp2 : putOp2 (fieldOp2 w) = w &&& 0x0001F000 := placed_extract w _ (by decide)
theorem putOp3_fieldOp3 : putOp3 (fieldOp3 w) = w &&& 0x00000F80 := placed_extract w _ (by decide)
theorem putImm_fieldImm : putImm (fieldImm w) = w &&& 0x00000FFF :=
  (putImm_eq_placed _).trans (placed_extract w _ (by decide))
theorem putAddr_fieldAddr : putAddr (fieldAddr w) = w &&& 0x0000FFFF :=
  (putAddr_eq_placed _).trans (placed_extract w _ (by decide))

/-- The operand bits of the instruction that a row makes of a word are the word's bits outside the row's
mask, bit 31 apart (R91, R96). -/
theorem operandBits_buildInstr (o : Op) :
    operandBits (buildInstr w o) = w &&& (0x7FFFFFFF &&& ~~~(encRow o).mask) := by
  cases o <;>
    simp only [operandBits, buildInstr, fieldNewpc_eq, putOp1_fieldOp1, putOp2_fieldOp2, putOp3_fieldOp3,
      putImm_fieldImm, putAddr_fieldAddr, ← BitVec.and_or_distrib_left] <;> simp [encRow]

end Fields

/-! ### The row a word selects -/

section Rows

variable {w : Word} {o : Op} {mode : ParityMode} {i : Instr}

theorem mask_and_selectMask (o : Op) : (encRow o).mask &&& selectMask = selectMask := by
  cases o <;> decide

theorem pattern_and_selectMask (o : Op) : (encRow o).pattern &&& selectMask = (encRow o).pattern := by
  cases o <;> decide

/-- No row looks at bit 31 (R87, R90). -/
theorem parity_and_mask (o : Op) : 0x7FFFFFFF &&& (encRow o).mask = (encRow o).mask := by
  cases o <;> decide

/-- The row whose selector a word has, if there is one (R95). -/
def rowOf (w : Word) : Option Op :=
  allOps.find? fun o => w &&& selectMask == (encRow o).pattern &&& selectMask

/-- The search in `decode` finds each row by its own pattern: the selectors are distinct (R95). -/
theorem rowOf_pattern (o : Op) : rowOf (encRow o).pattern = some o := by
  cases o <;> decide

theorem rowOf_eq_some : rowOf w = some o ↔ w &&& selectMask = (encRow o).pattern &&& selectMask := by
  constructor
  · intro h
    simpa using List.find?_some h
  · intro h
    rw [← rowOf_pattern o, rowOf, h, rowOf]

/-- A word that fits a row's mask selects the row. -/
theorem rowOf_of_fits (h : w &&& (encRow o).mask = (encRow o).pattern) : rowOf w = some o := by
  rw [rowOf_eq_some, ← mask_and_selectMask o, ← BitVec.and_assoc, h, ← BitVec.and_assoc,
    Laws.pattern_and_mask]

/-! `decode` by the row selected (R95). -/

theorem decode_badParity (h : parityOk mode w = false) : decode mode w = .error .badParity := by
  simp [decode, decodeWith, h]

theorem decode_of_no_row (hp : parityOk mode w = true) (hrow : rowOf w = none) :
    decode mode w = .error .noSuchInstruction := by
  unfold rowOf at hrow
  simp only [decode, decodeWith, hp, if_true, hrow]

theorem decode_of_row (hp : parityOk mode w = true) (hrow : rowOf w = some o) : decode mode w =
    if w &&& (encRow o).mask = (encRow o).pattern then .ok (buildInstr w o) else .error .unusedBitSet := by
  unfold rowOf at hrow
  simp only [decode, decodeWith, hp, if_true, hrow, beq_iff_eq]

/-- A word decodes when its parity is right and it has the bits that the row's mask fixes (R87, R91,
R95). -/
theorem decode_ok_iff : decode mode w = .ok i ↔
    parityOk mode w = true ∧ w &&& (encRow i.op).mask = (encRow i.op).pattern ∧ buildInstr w i.op = i := by
  constructor
  · intro h
    cases hp : parityOk mode w
    case false => rw [decode_badParity hp] at h; cases h
    case true =>
      cases hrow : rowOf w
      case none => rw [decode_of_no_row hp hrow] at h; cases h
      case some o =>
        rw [decode_of_row hp hrow] at h
        split at h
        case isFalse => cases h
        case isTrue hfit =>
          cases h
          rw [buildInstr_op]
          exact ⟨rfl, hfit, rfl⟩
  · rintro ⟨hp, hfit, hbuild⟩
    rw [decode_of_row hp (rowOf_of_fits hfit), if_pos hfit, hbuild]

theorem decode_noSuchInstruction (hp : parityOk mode w = true)
    (h : ∀ o, w &&& selectMask ≠ (encRow o).pattern) : decode mode w = .error .noSuchInstruction := by
  refine decode_of_no_row hp (Option.eq_none_iff_forall_ne_some.mpr fun o ho => ?_)
  exact h o ((rowOf_eq_some.mp ho).trans (pattern_and_selectMask o))

theorem decode_unusedBitSet (hp : parityOk mode w = true)
    (hsel : w &&& selectMask = (encRow o).pattern) (h : w &&& (encRow o).mask ≠ (encRow o).pattern) :
    decode mode w = .error .unusedBitSet := by
  rw [decode_of_row hp (rowOf_eq_some.mpr (hsel.trans (pattern_and_selectMask o).symm)), if_neg h]

/-- The value of bits 30..22 that selects a row (R82). -/
def selectorOf (o : Op) : Nat := ((encRow o).type ++ (encRow o).opcode ++ (encRow o).func).toNat

theorem pattern_eq_shift_iff (o : Op) {n : Nat} (hn : n < 512) :
    (encRow o).pattern = BitVec.ofNat 32 n <<< 22 ↔ selectorOf o = n := by
  have hpat : (encRow o).pattern = BitVec.ofNat 32 (selectorOf o) <<< 22 := by cases o <;> rfl
  have hsel : selectorOf o < 512 := BitVec.isLt _
  rw [hpat, ← BitVec.toNat_inj]
  simp only [BitVec.toNat_shiftLeft, BitVec.toNat_ofNat]
  omega

/-- The selectors are distinct, so that as many of the 512 values are assigned as there are mnemonics. -/
theorem countP_selectors : (List.range 512).countP (fun n =>
    allOps.any fun o => (encRow o).pattern == BitVec.ofNat 32 n <<< 22) = allOps.length := by
  have hnodup : (allOps.map selectorOf).Nodup := by decide +kernel
  have hperm : ((List.range 512).filter fun n =>
      allOps.any fun o => (encRow o).pattern == BitVec.ofNat 32 n <<< 22).Perm (allOps.map selectorOf) := by
    refine (List.perm_ext_iff_of_nodup (List.nodup_range.filter _) hnodup).mpr fun n => ?_
    simp only [List.mem_filter, List.mem_range, List.any_eq_true, beq_iff_eq, List.mem_map]
    constructor
    · rintro ⟨hn, o, ho, hpat⟩
      exact ⟨o, ho, (pattern_eq_shift_iff o hn).mp hpat⟩
    · rintro ⟨o, ho, rfl⟩
      exact ⟨BitVec.isLt _, o, ho, (pattern_eq_shift_iff o (BitVec.isLt _)).mpr rfl⟩
  rw [List.countP_eq_length_filter, hperm.length_eq, List.length_map]

theorem opcode_ne_zero (o : Op) : (encRow o).opcode ≠ 0 := by
  cases o <;> decide

/-- Bits 28..25 of a word that fits a row are the row's opcode (R82). -/
theorem extract_opcode_of_fits (h : w &&& (encRow o).mask = (encRow o).pattern) :
    w.extractLsb' 25 4 = (encRow o).opcode := by
  have hbits : (encRow o).mask.extractLsb' 25 4 = BitVec.allOnes 4 := by cases o <;> decide
  have hpat : (encRow o).pattern.extractLsb' 25 4 = (encRow o).opcode := by cases o <;> decide
  rw [← hpat, ← h, BitVec.extractLsb'_and, hbits, BitVec.and_allOnes]

end Rows

/-! ### Bit 31 (R87) -/

section Parity

variable {w : Word} {mode : ParityMode}

/-- The parity of the low `n` bits looks at no other bit. -/
theorem xorBits_congr {v w : Word} {n : Nat} (h : ∀ k < n, v.getLsbD k = w.getLsbD k) :
    xorBits v n = xorBits w n := by
  induction n with
  | zero => rfl
  | succ n ih => rw [xorBits, xorBits, h n (by omega), ih fun k hk => h k (by omega)]

/-- The parity of a word is that of bit 31 and of the 31 bits below it. -/
theorem xorBits_word (w : Word) : xorBits w 32 = Bool.xor (w.getLsbD 31) (xorBits w 31) := rfl

theorem getLsbD_and_low31 {k : Nat} (w : Word) (hk : k < 31) :
    (w &&& 0x7FFFFFFF).getLsbD k = w.getLsbD k := by
  have hone : (0x7FFFFFFF : Word).getLsbD k = true := by revert k; decide
  rw [BitVec.getLsbD_and, hone, Bool.and_true]

theorem xor_and_distrib (v w c : Word) : (v ^^^ w) &&& c = (v &&& c) ^^^ (w &&& c) := by
  ext k hk
  simp [Bool.and_xor_distrib_right]

theorem extract_low31 {p q : Nat} (w : Word) (h : p + q ≤ 31) :
    (w &&& 0x7FFFFFFF).extractLsb' p q = w.extractLsb' p q := by
  ext k hk
  rw [BitVec.getElem_extractLsb', BitVec.getElem_extractLsb', getLsbD_and_low31 w (by omega)]

theorem xorBits_and_low31 (w : Word) : xorBits (w &&& 0x7FFFFFFF) 31 = xorBits w 31 :=
  xorBits_congr fun _ hk => getLsbD_and_low31 w hk

theorem low31_of_parity_clear (h : w.getLsbD 31 = false) : w &&& 0x7FFFFFFF = w := by
  apply BitVec.eq_of_getLsbD_eq
  intro k hk
  by_cases hlow : k < 31
  · exact getLsbD_and_low31 w hlow
  · obtain rfl : k = 31 := by omega
    rw [BitVec.getLsbD_and, h, Bool.false_and]

theorem low31_or_of_parity_set (h : w.getLsbD 31 = true) : (w &&& 0x7FFFFFFF) ||| 0x80000000 = w := by
  apply BitVec.eq_of_getLsbD_eq
  intro k hk
  rw [BitVec.getLsbD_or]
  by_cases hlow : k < 31
  · have hzero : (0x80000000 : Word).getLsbD k = false := by revert k; decide
    rw [getLsbD_and_low31 w hlow, hzero, Bool.or_false]
  · obtain rfl : k = 31 := by omega
    rw [h]
    simp

theorem low31_or_parity (w : Word) : (w ||| 0x80000000) &&& 0x7FFFFFFF = w &&& 0x7FFFFFFF := by
  rw [BitVec.and_or_distrib_right]
  simp

/-- The encoder's parity bit is bit 31 and nothing else. -/
theorem setParity_low31 (h : w &&& 0x7FFFFFFF = w) : setParity mode w &&& 0x7FFFFFFF = w := by
  unfold setParity
  split
  · exact h
  all_goals
    split
    · simpa only [low31_or_parity] using h
    · simpa only [low31_or_parity] using h

theorem getLsbD_31_of_low31 (h : w &&& 0x7FFFFFFF = w) : w.getLsbD 31 = false := by
  rw [← h]; simp

/-- The parity of a word whose bit 31 is set over its low 31 bits. -/
theorem xorBits_or_parity (w : Word) : xorBits (w ||| 0x80000000) 32 = !xorBits w 31 := by
  rw [xorBits_word, ← xorBits_and_low31, low31_or_parity, xorBits_and_low31]
  simp

theorem xorBits_of_low31 (h : w &&& 0x7FFFFFFF = w) : xorBits w 32 = xorBits w 31 := by
  rw [xorBits_word, getLsbD_31_of_low31 h, Bool.false_xor]

/-- The encoder's bit 31 is what the mode wants (R87, R96). -/
theorem xorBits_setParity_even (h : w &&& 0x7FFFFFFF = w) : xorBits (setParity .even w) 32 = false := by
  simp only [setParity]
  split
  case isTrue hx => rw [xorBits_or_parity, hx, Bool.not_true]
  case isFalse hx => rwa [xorBits_of_low31 h, ← Bool.not_eq_true]

theorem xorBits_setParity_odd (h : w &&& 0x7FFFFFFF = w) : xorBits (setParity .odd w) 32 = true := by
  simp only [setParity]
  split
  case isTrue hx => rwa [xorBits_of_low31 h]
  case isFalse hx => rw [xorBits_or_parity, Bool.eq_false_of_not_eq_true hx, Bool.not_false]

theorem parityOk_setParity (h : w &&& 0x7FFFFFFF = w) : parityOk mode (setParity mode w) = true := by
  cases mode
  case none => rfl
  case even => simp [parityOk, xorBits_setParity_even h]
  case odd => simp [parityOk, xorBits_setParity_odd h]

/-- A word of the right parity is its low 31 bits with the parity bit that the encoder writes (R87). -/
theorem setParity_of_parityOk (hmode : mode ≠ .none) (h : parityOk mode w = true) :
    setParity mode (w &&& 0x7FFFFFFF) = w := by
  cases mode
  case none => exact absurd rfl hmode
  case even =>
    have hbit : xorBits w 31 = w.getLsbD 31 := by
      rw [parityOk, xorBits_word] at h; grind
    simp only [setParity, xorBits_and_low31, hbit]
    split
    case isTrue hset => exact low31_or_of_parity_set hset
    case isFalse hclear => exact low31_of_parity_clear (Bool.eq_false_of_not_eq_true hclear)
  case odd =>
    have hbit : xorBits w 31 = !w.getLsbD 31 := by
      rw [parityOk, xorBits_word] at h; grind
    simp only [setParity, xorBits_and_low31, hbit, Bool.not_eq_true']
    split
    case isTrue hclear => exact low31_of_parity_clear hclear
    case isFalse hset => exact low31_or_of_parity_set (Bool.eq_true_of_not_eq_false hset)

end Parity

/-! ### Decoding and encoding -/

section RoundTrip

variable (i : Instr) (o : Op) (w : Word)

/-- The operands of an instruction stay out of its row's mask and of bit 31, because they are read back
and put again at the same places. -/
theorem operandBits_eq_and : operandBits i = operandBits i &&& (0x7FFFFFFF &&& ~~~(encRow i.op).mask) := by
  rw [← operandBits_buildInstr, buildInstr_operandBits]

theorem operandBits_and_mask : operandBits i &&& (encRow i.op).mask = 0 := by
  rw [operandBits_eq_and, BitVec.and_assoc, BitVec.and_assoc, BitVec.and_comm (~~~_), BitVec.and_not_self]
  simp

theorem encode_none_eq : encode .none i = (encRow i.op).pattern ||| operandBits i := rfl

theorem encode_eq_setParity (mode : ParityMode) : encode mode i = setParity mode (encode .none i) := rfl

/-- What the encoder gives fits the row (the family of Laws/PerInstr.lean, for every instruction at
once). -/
theorem encode_fits : encode .none i &&& (encRow i.op).mask = (encRow i.op).pattern :=
  Laws.fits_of_operands _ _ _ (Laws.pattern_and_mask i.op) (operandBits_and_mask i)

theorem encode_low31 : encode .none i &&& 0x7FFFFFFF = encode .none i := by
  have hpat : (encRow i.op).pattern &&& 0x7FFFFFFF = (encRow i.op).pattern := by
    cases i.op <;> decide
  have hops : operandBits i &&& 0x7FFFFFFF = operandBits i := by
    rw [operandBits_eq_and, BitVec.and_comm 0x7FFFFFFF, BitVec.and_assoc, BitVec.and_assoc, BitVec.and_self]
  rw [encode_none_eq, BitVec.and_or_distrib_right, hpat, hops]

theorem and_mask_low31 : (w &&& 0x7FFFFFFF) &&& (encRow o).mask = w &&& (encRow o).mask := by
  rw [BitVec.and_assoc, parity_and_mask]

theorem buildInstr_low31 : buildInstr (w &&& 0x7FFFFFFF) o = buildInstr w o := by
  have h1 : fieldOp1 (w &&& 0x7FFFFFFF) = fieldOp1 w := extract_low31 w (by decide)
  have h2 : fieldOp2 (w &&& 0x7FFFFFFF) = fieldOp2 w := extract_low31 w (by decide)
  have h3 : fieldOp3 (w &&& 0x7FFFFFFF) = fieldOp3 w := extract_low31 w (by decide)
  have hi : fieldImm (w &&& 0x7FFFFFFF) = fieldImm w := extract_low31 w (by decide)
  have ha : fieldAddr (w &&& 0x7FFFFFFF) = fieldAddr w := extract_low31 w (by decide)
  cases o <;> simp only [buildInstr, fieldNewpc_eq, h1, h2, h3, hi, ha]

/-- Under `none` the decoder does not look at bit 31 (R87). -/
theorem decode_none_low31 : decode .none (w &&& 0x7FFFFFFF) = decode .none w := by
  have hsame : rowOf (w &&& 0x7FFFFFFF) = rowOf w := by
    rw [rowOf, BitVec.and_assoc, show (0x7FFFFFFF : Word) &&& selectMask = selectMask by decide, rowOf]
  cases hrow : rowOf w
  case none => rw [decode_of_no_row rfl hrow, decode_of_no_row rfl (hsame.trans hrow)]
  case some o =>
    rw [decode_of_row rfl hrow, decode_of_row rfl (hsame.trans hrow), and_mask_low31, buildInstr_low31]

end RoundTrip
end Sys2Proof

namespace Sys2Proof.Machine

variable {s t : State} {w : Word} {i : Instr}

/-! ### The step by what the fetched word decodes to (R315) -/

theorem step_of_no_word (hr : s.run = .running) (hw : s.fetch = none) :
    step s = .fault (.fetchOutOfRange s.pcValue) := by
  simp only [step, hr, hw]

theorem step_of_decode_error {e : DecodeError} (hr : s.run = .running) (hw : s.fetch = some w)
    (he : decode s.parityMode w = .error e) : step s = .fault (.illegalInstruction s.pcValue w) := by
  simp only [step, hr, hw, he]

theorem step_of_exec_fault {f : Fault} (hr : s.run = .running) (hw : s.fetch = some w)
    (hi : decode s.parityMode w = .ok i) (hf : exec i s = .fault f) : step s = .fault f := by
  simp only [step, hr, hw, hi, hf]

theorem step_of_not_running (h : s.run ≠ .running) : step s = .refused .notRunning := by
  unfold step
  split
  case h_1 | h_2 => rfl
  case h_3 hr => exact absurd hr h

end Sys2Proof.Machine

namespace Sys2Proof.Proofs

open Sys2Proof.Machine

/-- Settles O1: the encoding fits its row under every parity mode, and its fields are the operands. -/
theorem decodeEncodeAgree : Obligations.DecodeEncodeAgree := by
  intro mode i
  have hlow : encode mode i &&& 0x7FFFFFFF = encode .none i := setParity_low31 (encode_low31 i)
  rw [decode_ok_iff]
  refine ⟨parityOk_setParity (encode_low31 i), ?fits, ?fields⟩
  case fits => rw [← and_mask_low31, hlow, encode_fits]
  case fields => rw [← buildInstr_low31, hlow, encode_none_eq, buildInstr_pattern_or, buildInstr_operandBits]

/-- Settles O2: a word that decodes is its row's pattern in the mask's bits and the operands elsewhere,
and bit 31 is the one the mode wants. -/
theorem encodeDecodeAgree : Obligations.EncodeDecodeAgree := by
  intro mode w i h
  obtain ⟨hp, hfit, hbuild⟩ := decode_ok_iff.mp h
  have hword : encode .none i = w &&& 0x7FFFFFFF := by
    rw [encode_none_eq, ← hfit, ← hbuild, operandBits_buildInstr, buildInstr_op,
      ← BitVec.and_or_distrib_left]
    congr 1
    cases i.op <;> decide
  split
  case isTrue hmode => rw [hmode, hword]
  case isFalse hmode => rw [encode_eq_setParity, hword, setParity_of_parityOk hmode hp]

/-- Settles O3: the search finds the row of each selector, and it finds one row only. -/
theorem selectorsAreDistinct : Obligations.SelectorsAreDistinct := by
  intro w o p ho hp
  rw [← rowOf_eq_some] at ho hp
  exact Option.some.inj (ho.symm.trans hp)

/-- Settles O4: no row is found, the table has 60 selectors, and no row has opcode 0. -/
theorem illegalSelectorFaults : Obligations.IllegalSelectorFaults := by
  refine ⟨fun s w hr hw hp hsel => ?fault, countP_selectors, fun mode w i hzero hok => ?opcode⟩
  case fault => exact step_of_decode_error hr hw (decode_noSuchInstruction hp hsel)
  case opcode =>
    obtain ⟨-, hfit, -⟩ := decode_ok_iff.mp hok
    exact opcode_ne_zero i.op ((extract_opcode_of_fits hfit).symm.trans hzero)

/-- Settles O5: the row is found and its mask rejects the word. -/
theorem unusedBitFaults : Obligations.UnusedBitFaults := by
  intro s w o hr hw hp hsel hbit
  exact step_of_decode_error hr hw (decode_unusedBitSet hp hsel hbit)

/-- Settles O6: decoding under `none` looks at the low 31 bits only, and a wrong parity is a decoding
error. -/
theorem parityBitRules : Obligations.ParityBitRules := by
  refine ⟨fun w => ?ignored, fun i => ?written,
    fun s w hr hw => ⟨fun hm hx => ?even, fun hm hx => ?odd⟩⟩
  case ignored =>
    have hlow : (w ^^^ 0x80000000) &&& 0x7FFFFFFF = w &&& 0x7FFFFFFF := by
      rw [xor_and_distrib]
      simp
    rw [← decode_none_low31 w, ← decode_none_low31 (w ^^^ 0x80000000), hlow]
  case written =>
    exact ⟨getLsbD_31_of_low31 (encode_low31 i), xorBits_setParity_even (encode_low31 i),
      xorBits_setParity_odd (encode_low31 i)⟩
  case even | odd =>
    exact step_of_decode_error hr hw (decode_badParity (by simp [parityOk, hm, hx]))

/-- Settles O7: the decoder is run on each word. -/
theorem sampleWordsDecode : Obligations.SampleWordsDecode := by
  unfold Obligations.SampleWordsDecode
  refine ⟨?_, ?_, ?_, ?_, ?_, ?_, ?_, ?_, ?_, ?_, ?_, ?_⟩
  all_goals rfl

end Sys2Proof.Proofs

/-! PROOFS. What every step keeps: the invariant, the platform's parameters and the run status, how an
instruction can fail, and the sequential advance (R25, R38, R52, R300, R315). -/

namespace Sys2Proof.Machine

variable {s t u : State} {i : Instr}

/-! ### What the shapes of a next state leave unchanged -/

theorem exec_samePlatform (h : exec i s = .next t) : SamePlatform s t := by
  cases exec_shape i h <;> exact ⟨rfl, rfl, rfl, rfl, rfl, rfl⟩

theorem op_eq_endFw_iff : i.op = .endFw ↔ i = .endFw := by
  cases i <;> simp [Instr.op]

/-- Only END writes STATUS[DONE] and the run status (R37, R38). -/
theorem exec_sameStatus (h : exec i s = .next t) (hop : i.op ≠ .endFw) : SameStatus s t := by
  cases exec_shape i h
  case finish hend => exact absurd hend hop
  all_goals exact ⟨rfl, rfl⟩

theorem step_samePlatform (h : step s = .next t) : SamePlatform s t := by
  obtain ⟨-, w, i, u, -, -, hexec, rfl⟩ := step_next_iff.mp h
  have hsame : SamePlatform s u := exec_samePlatform hexec
  exact hsame

/-! ### The invariant, part by part -/

theorem targetOk_iff {a : Addr} : targetOk a = true ↔ a.toNat % 4 = 0 := by
  simp [targetOk]

theorem toNat_add_four_mod {a : Addr} (h : a.toNat % 4 = 0) : (a + 4).toNat % 4 = 0 := by
  rw [BitVec.toNat_add, show (4 : Addr).toNat = 4 from rfl]
  omega

/-- Going on from a multiple of 4 ends at a multiple of 4, and past the top only at 0x10000 (R25). -/
theorem State.advance_pcInv (h : s.pc.toNat % 4 = 0) : s.advance.PcInv := by
  refine ⟨toNat_add_four_mod h, fun hcarry => ?_⟩
  have hlt : s.pc.toNat < 65536 := s.pc.isLt
  have htop : 65536 ≤ s.pc.toNat + 4 := by simpa using hcarry
  apply BitVec.eq_of_toNat_eq
  rw [State.advance_pc, BitVec.toNat_add, show (4 : Addr).toNat = 4 from rfl]
  change _ = 0
  omega

theorem State.setPc_pcInv {n : Addr} (h : targetOk n = true) : (s.setPc n).PcInv :=
  ⟨targetOk_iff.mp h, fun hcarry => nomatch hcarry⟩

theorem exec_pcInv (hs : s.PcInv) (h : exec i s = .next t) : t.PcInv := by
  obtain ⟨hpc, hcarry⟩ := hs
  cases exec_shape i h
  case jump hn _ => exact State.setPc_pcInv hn
  case call hn _ _ _ => exact State.setPc_pcInv hn
  case ret hn _ => exact State.setPc_pcInv hn
  case finish => exact ⟨hpc, hcarry⟩
  all_goals exact State.advance_pcInv hpc

theorem exec_rarInv (hpc : s.PcInv) (hs : s.RarInv) (h : exec i s = .next t) : t.RarInv := by
  obtain ⟨hlen, hall⟩ := hs
  cases exec_shape i h
  case call hn hp hr _ =>
    have hret : targetOk (s.pc + 4) = true := targetOk_iff.mpr (toNat_add_four_mod hpc.1)
    exact ⟨Nat.lt_of_le_of_ne hlen hr, List.all_cons.trans (by rw [hret, hall, Bool.and_true])⟩
  case ret n rest hr hn _ =>
    rw [hr] at hlen hall
    simp only [List.length_cons, List.all_cons, Bool.and_eq_true] at hlen hall
    exact ⟨Nat.le_of_succ_le hlen, hall.2⟩
  all_goals exact ⟨hlen, hall⟩

theorem memory_below_iff {m : Memory} :
    m.all (fun p => decide (p.1 ≤ 0xFFFF)) = true ↔ Memory.below 0x10000 m := by
  simp [Memory.below, Nat.lt_succ_iff]

theorem exec_memInv (hs : s.MemInv) (h : exec i s = .next t) : t.MemInv := by
  obtain ⟨hwf, hbelow, himem⟩ := hs
  cases exec_shape i h
  case store a v ha _ =>
    refine ⟨Memory.wf_setBlock _ _ _ _ hwf, ?_, himem⟩
    rw [memory_below_iff] at hbelow ⊢
    exact Memory.below_setBlock _ _ _ a v hbelow (by omega)
  all_goals exact ⟨hwf, hbelow, himem⟩

theorem exec_doneInv (hs : s.DoneInv) (h : exec i s = .next t) : t.DoneInv := by
  by_cases hop : i.op = .endFw
  · obtain rfl := op_eq_endFw_iff.mp hop
    cases h
    exact ⟨fun _ => rfl, fun _ => rfl⟩
  · obtain ⟨hdone, hrun⟩ := exec_sameStatus h hop
    rw [State.DoneInv, hdone, hrun]
    exact hs

/-! ### Sequential advance (R25) -/

/-- Every instruction that is no transfer of control and no END goes on. -/
theorem exec_advanced (h : exec i s = .next t)
    (hop : i.op ∉ [.call, .ret, .jmp, .endFw, .brz, .brnz, .brc, .brnc, .bre, .brne]) :
    Advanced s t := by
  cases exec_shape i h
  case jump hjump => exact absurd hjump (by simp at hop ⊢; tauto)
  case call hcall => exact absurd hcall (by simp at hop; tauto)
  case ret hret => exact absurd hret (by simp at hop; tauto)
  case finish hend => exact absurd hend (by simp at hop; tauto)
  all_goals exact State.advance_pcValue _

theorem State.branch_not_taken {n : Addr} (h : s.branch false n = .next t) : Advanced s t := by
  rcases (s.branch_next t).mp h with ⟨hf, -, -⟩ | ⟨-, rfl⟩
  · cases hf
  · exact State.advance_pcValue s

theorem Program.word_of_gt {p : Program} {a : Nat} (h : 0xFFFC < a) : p.word a = none := by
  rw [Program.word, if_neg (by omega)]

end Sys2Proof.Machine

namespace Sys2Proof.Proofs

open Sys2Proof.Machine

/-- Settles O12: each part of the invariant is kept by every shape of next state, and the cycle counter
is in none of them. -/
theorem invariantKeptByStep : Obligations.InvariantKeptByStep := by
  rintro s t ⟨hpc, hrar, hmem, hdone⟩ h
  obtain ⟨-, w, i, u, -, -, hexec, rfl⟩ := step_next_iff.mp h
  have hu : u.Inv := ⟨exec_pcInv hpc hexec, exec_rarInv hpc hrar hexec, exec_memInv hmem hexec,
    exec_doneInv hdone hexec⟩
  exact hu

/-- Settles O8: the two sides of what a step does with a decoded instruction. -/
theorem stepRunsDecodedInstruction : Obligations.StepRunsDecodedInstruction := by
  intro s w i hr hw hi
  exact ⟨fun t ht => step_next_iff.mpr ⟨hr, w, i, t, hw, hi, ht, rfl⟩,
    fun f hf => step_of_exec_fault hr hw hi hf⟩

/-- Settles O9: a step without a word faults, no shape of next state writes `IMEM`, and both admission
checks ask for no program word. -/
theorem programMemoryRules : Obligations.ProgramMemoryRules := by
  refine ⟨fun s => rfl, fun s hr hw => step_of_no_word hr hw, fun s t h => (step_samePlatform h).1,
    fun s a ha => ?text⟩
  case text => simp [State.readAdmitted, State.writeAdmitted, ← Option.not_isSome, ha]

/-- Settles O10: END and a fault set the status, and the step asks for `running` first. -/
theorem runStatusRules : Obligations.RunStatusRules := by
  refine ⟨rfl, fun s => ⟨_, rfl, rfl⟩, fun s f h => ?faulted, fun s h => ?stopped, fun s => ?final⟩
  case faulted => rw [State.after, h]; rfl
  case stopped =>
    have hstep := step_of_not_running h
    exact ⟨hstep, by rw [State.after, hstep]⟩
  case final => simp [State.final]

/-- Settles O11: the shapes that go on, the branches not taken, and no program word past 0xFFFC. -/
theorem sequentialAdvance : Obligations.SequentialAdvance := by
  refine ⟨fun i s t hop h => exec_advanced h hop, fun n s t => ?branches, fun s t hpc _ hrun hadv => ?top⟩
  case branches =>
    refine ⟨?_, ?_, ?_, ?_, ?_, ?_⟩
    all_goals
      intro hflag h
      refine State.branch_not_taken (n := n) ?_
      simpa [exec, execBrz, execBrnz, execBrc, execBrnc, execBre, execBrne, hflag] using h
  case top =>
    have hvalue : t.pcValue = 0x10000 := by rw [hadv, hpc]; rfl
    rw [step_of_no_word hrun (Program.word_of_gt (by omega)), hvalue]

/-- Settles O13: the invariant is decidable, and `State.reset` is a literal. -/
theorem invariantHoldsAtReset : Obligations.InvariantHoldsAtReset := by
  unfold Obligations.InvariantHoldsAtReset
  decide

/-- Settles O14: each field is as `State.reset` writes it. -/
theorem resetLeaves : Obligations.ResetLeaves := by
  unfold Obligations.ResetLeaves
  decide

/-- Settles O15: no shape of next state writes a parameter. -/
theorem platformFixedDuringRun : Obligations.PlatformFixedDuringRun :=
  fun _ _ => step_samePlatform

end Sys2Proof.Proofs

/-! PROOFS. How an instruction can fail to complete: which faults its meaning raises, and that it is never
refused (R301). -/

namespace Sys2Proof.Machine

variable {s : State} {o : Op}

/-- Which mnemonics raise a fault in execution: the column "by" of R301, with RET for MisalignedTarget
(R271). -/
def MayRaise (o : Op) : Fault → Prop
  | .fetchOutOfRange _ => o = .call
  | .illegalInstruction _ _ => o ∈ [.ldk, .stk, .kbo, .tmacIs]
  | .registerIndexOutOfRange _ => o ∈ [.hash, .tmacIt, .scb]
  | .zeroModulus _ => o ∈ [.addp, .subp, .mulp, .redp]
  | .addressOutOfRange _ _ | .misalignedAccess _ _ | .accessNotAdmitted _ _ => o ∈ [.ldr, .str, .ld, .st]
  | .misalignedTarget _ _ => o ∈ [.call, .ret, .jmp, .brz, .brnz, .brc, .brnc, .bre, .brne]
  | .rarOverflow _ => o = .call
  | .rarUnderflow _ => o = .ret

/-- An outcome that an instruction with mnemonic `o` may have: a next state, or a fault of its own. -/
def EndsAs (o : Op) : Result → Prop
  | .next _ => True
  | .fault f => MayRaise o f
  | .refused _ => False

theorem State.jump_endsAs {n : Addr}
    (h : o ∈ [.call, .ret, .jmp, .brz, .brnz, .brc, .brnc, .bre, .brne]) : EndsAs o (s.jump n) := by
  unfold State.jump
  split
  case isTrue => trivial
  case isFalse => exact h

theorem State.branch_endsAs {n : Addr} {taken : Bool}
    (h : o ∈ [.call, .ret, .jmp, .brz, .brnz, .brc, .brnc, .bre, .brne]) : EndsAs o (s.branch taken n) := by
  unfold State.branch
  split
  case isTrue => exact State.jump_endsAs h
  case isFalse => trivial

theorem mayRaise_of_blockFault {admitted : Nat → Bool} {pc a : Nat} {f : Fault}
    (h : o ∈ [.ldr, .str, .ld, .st]) (hf : blockFault admitted pc a = some f) : MayRaise o f := by
  obtain ⟨d, -, hd⟩ := List.exists_of_findSome?_eq_some hf
  unfold wordFault at hd
  split at hd
  case isTrue => cases hd; exact h
  case isFalse =>
    split at hd
    case isTrue => cases hd; exact h
    case isFalse =>
      split at hd
      case isTrue => cases hd
      case isFalse => cases hd; exact h

theorem State.loadReg_endsAs {d : RegNo} {ea : Nat} (h : o ∈ [.ldr, .str, .ld, .st]) :
    EndsAs o (s.loadReg d ea) := by
  unfold State.loadReg State.memRead
  cases hf : blockFault s.readAdmitted s.pcValue ea
  case none => trivial
  case some f => exact mayRaise_of_blockFault h hf

theorem State.storeReg_endsAs {d : RegNo} {ea : Nat} (h : o ∈ [.ldr, .str, .ld, .st]) :
    EndsAs o (s.storeReg d ea) := by
  unfold State.storeReg State.memWrite
  cases hf : blockFault s.writeAdmitted s.pcValue ea
  case none => trivial
  case some f => exact mayRaise_of_blockFault h hf

theorem State.modularResult_endsAs {d : RegNo} {v : Int} (h : o ∈ [.addp, .subp, .mulp, .redp]) :
    EndsAs o (s.modularResult d v) := by
  unfold State.modularResult
  split
  case isTrue => exact h
  case isFalse => trivial

/-- What a meaning with one check answers. -/
theorem endsAs_ite {p : Prop} [Decidable p] {f : Fault} {t : State} (h : MayRaise o f) :
    EndsAs o (if p then raise f else .next t) := by
  split
  case isTrue => exact h
  case isFalse => trivial

theorem endsAs_ite_not {p : Prop} [Decidable p] {f : Fault} {t : State} (h : MayRaise o f) :
    EndsAs o (if p then .next t else raise f) := by
  split
  case isTrue => trivial
  case isFalse => exact h

theorem execCall_endsAs {n : Addr} : EndsAs .call (execCall n s) := by
  unfold execCall State.rarPush
  split
  case isTrue => exact rfl
  case isFalse =>
    split
    case isFalse => simp [EndsAs, raise, MayRaise]
    case isTrue =>
      by_cases hfull : s.rar.length = s.rarDepth.val
      · rw [if_pos hfull]; exact rfl
      · rw [if_neg hfull]; trivial

theorem execRet_endsAs : EndsAs .ret (execRet s) := by
  unfold execRet State.rarPop
  cases s.rar
  case nil => exact rfl
  case cons => exact State.jump_endsAs (by simp)

/-- Every instruction completes or raises a fault that R301 gives it, in every state. -/
theorem exec_endsAs (i : Instr) (s : State) : EndsAs i.op (exec i s) := by
  cases i
  case hash | tmacIt | scb => exact endsAs_ite (by simp [MayRaise, Instr.op])
  case ldk | stk | kbo | tmacIs => exact endsAs_ite_not (by simp [MayRaise, Instr.op])
  case addp | subp | mulp | redp => exact State.modularResult_endsAs (by simp [Instr.op])
  case ldr | ld => exact State.loadReg_endsAs (by simp [Instr.op])
  case str | st => exact State.storeReg_endsAs (by simp [Instr.op])
  case call => exact execCall_endsAs
  case ret => exact execRet_endsAs
  case jmp => exact State.jump_endsAs (by simp [Instr.op])
  case brz | brnz | brc | brnc | bre | brne => exact State.branch_endsAs (by simp [Instr.op])
  all_goals trivial

end Sys2Proof.Machine

namespace Sys2Proof.Proofs

open Sys2Proof.Machine

/-- Settles O16: a refusal is no outcome that an instruction may have. -/
theorem execNeverRefuses : Obligations.ExecNeverRefuses := by
  intro i s r h
  have hends := exec_endsAs i s
  rw [h] at hends
  exact hends

/-- Settles O17: the faults an instruction may have are those of the column "by". -/
theorem faultReasonsByInstruction : Obligations.FaultReasonsByInstruction := by
  intro i s f h
  have hraise := exec_endsAs i s
  rw [h] at hraise
  cases f <;> exact hraise

end Sys2Proof.Proofs

/-! PROOFS. What an instruction does not read (R32, R35, R36, R37, R51): a part of the state that it
does not use may hold anything else, and the instruction does the same. -/

namespace Sys2Proof.Machine

/-- Another content of one of the parts of the state that only a few instructions use. -/
inductive Content where
  | mem (m : Memory)
  | rar (l : List Addr)
  | sha (v : BitVec 512)
  | tmac (v : TmacState)
  | done (b : Bool)

/-- The instructions that use the part: R51, R32, R35, R36, R37. -/
def Content.users : Content → List Op
  | .mem _ => [.ldr, .ld, .str, .st]
  | .rar _ => [.call, .ret]
  | .sha _ => [.hash, .hashIt]
  | .tmac _ => [.tmacIt, .tmacIs, .tmacUp, .tmacRd]
  | .done _ => [.endFw]

/-- The state with that part replaced. -/
def State.withContent (s : State) : Content → State
  | .mem m => s.setMem m
  | .rar l => s.setRar l
  | .sha v => s.setSha v
  | .tmac v => s.setTmac v
  | .done b => { s with statusDone := b }

/-- An outcome with that part replaced in its next state. -/
def withContentAfter (c : Content) : Result → Result
  | .next t => .next (t.withContent c)
  | .fault f => .fault f
  | .refused r => .refused r

variable {s : State} {c : Content}

theorem State.withContent_reg (r : RegNo) : (s.withContent c).reg r = s.reg r := by
  cases c <;> rfl

theorem State.jump_withContent (n : Addr) :
    (s.withContent c).jump n = withContentAfter c (s.jump n) := by
  unfold State.jump
  split <;> cases c <;> rfl

theorem State.branch_withContent (taken : Bool) (n : Addr) :
    (s.withContent c).branch taken n = withContentAfter c (s.branch taken n) := by
  cases taken
  case false => cases c <;> rfl
  case true => exact State.jump_withContent n

theorem State.modularResult_withContent (d : RegNo) (u : Int) :
    (s.withContent c).modularResult d u = withContentAfter c (s.modularResult d u) := by
  unfold State.modularResult
  rw [State.withContent_reg]
  split <;> cases c <;> rfl

theorem State.swapIf_withContent (b : Bool) (d e : RegNo) :
    (s.withContent c).swapIf b d e = (s.swapIf b d e).withContent c := by
  cases b <;> cases c <;> rfl

theorem State.loadReg_withContent (d : RegNo) (ea : Nat) (h : Op.ld ∉ c.users) :
    (s.withContent c).loadReg d ea = withContentAfter c (s.loadReg d ea) := by
  have hcheck : blockFault (s.withContent c).readAdmitted (s.withContent c).pcValue ea =
      blockFault s.readAdmitted s.pcValue ea := by cases c <;> rfl
  unfold State.loadReg State.memRead
  rw [hcheck]
  cases blockFault s.readAdmitted s.pcValue ea
  case some f => rfl
  case none =>
    cases c
    case mem => simp [Content.users] at h
    all_goals rfl

theorem State.storeReg_withContent (d : RegNo) (ea : Nat) (h : Op.st ∉ c.users) :
    (s.withContent c).storeReg d ea = withContentAfter c (s.storeReg d ea) := by
  have hcheck : blockFault (s.withContent c).writeAdmitted (s.withContent c).pcValue ea =
      blockFault s.writeAdmitted s.pcValue ea := by cases c <;> rfl
  unfold State.storeReg State.memWrite
  rw [hcheck]
  cases blockFault s.writeAdmitted s.pcValue ea
  case some f => rfl
  case none =>
    cases c
    case mem => simp [Content.users] at h
    all_goals rfl

theorem execCall_withContent (n : Addr) (h : Op.call ∉ c.users) :
    execCall n (s.withContent c) = withContentAfter c (execCall n s) := by
  have hpc : (s.withContent c).pcValue = s.pcValue := by cases c <;> rfl
  have hpush : (s.withContent c).rarPush ((s.withContent c).pc + 4) =
      (s.rarPush (s.pc + 4)).map (·.withContent c) := by
    unfold State.rarPush
    rw [apply_ite (Except.map _)]
    cases c
    case rar => simp [Content.users] at h
    all_goals rfl
  unfold execCall
  rw [hpc, hpush]
  split
  case isTrue => rfl
  case isFalse =>
    split
    case isFalse => rfl
    case isTrue => cases s.rarPush (s.pc + 4) <;> cases c <;> rfl

theorem execRet_withContent (h : Op.ret ∉ c.users) :
    execRet (s.withContent c) = withContentAfter c (execRet s) := by
  have hrar : (s.withContent c).rar = s.rar := by
    cases c
    case rar => simp [Content.users] at h
    all_goals rfl
  have hpc : (s.withContent c).pcValue = s.pcValue := by cases c <;> rfl
  unfold execRet State.rarPop
  rw [hrar, hpc]
  cases s.rar
  case nil => rfl
  case cons n rest =>
    have hset : (s.withContent c).setRar rest = (s.setRar rest).withContent c := by
      cases c
      case rar => simp [Content.users] at h
      all_goals rfl
    simp only [hset]
    exact State.jump_withContent n

/-- The next state of HASH, whatever the value hashed. -/
theorem hashed_withContent (d : RegNo) (v : BitVec 512) (h : Op.hash ∉ c.users) :
    (((s.withContent c).setSha v).setRegPair d v).advance =
      ((s.setSha v).setRegPair d v).advance.withContent c := by
  cases c
  case sha => simp [Content.users] at h
  all_goals rfl

theorem execHash_withContent (d r : RegNo) (h : Op.hash ∉ c.users) :
    execHash d r (s.withContent c) = withContentAfter c (execHash d r s) := by
  have hsha : (s.withContent c).sha = s.sha := by
    cases c
    case sha => simp [Content.users] at h
    all_goals rfl
  have hgroup : (s.withContent c).regGroup r = s.regGroup r := by cases c <;> rfl
  have hpc : (s.withContent c).pcValue = s.pcValue := by cases c <;> rfl
  simp only [execHash, hsha, hgroup, hpc, hashed_withContent d _ h]
  split <;> rfl

/-- An instruction that does not use the part does the same whatever the part holds. -/
theorem exec_withContent (i : Instr) (h : i.op ∉ c.users) :
    exec i (s.withContent c) = withContentAfter c (exec i s) := by
  cases i
  case jmp n => exact State.jump_withContent n
  case brz n | brnz n | brc n | brnc n | bre n | brne n =>
    refine (State.branch_withContent _ n).symm.trans ?_ |>.symm
    cases c <;> rfl
  case addp | subp | mulp | redp =>
    simp only [exec, execAddp, execSubp, execMulp, execRedp, State.withContent_reg]
    exact State.modularResult_withContent _ _
  case ldr d a =>
    simp only [exec, execLdr, State.withContent_reg]
    exact State.loadReg_withContent d _ (by cases c <;> simp_all [Content.users, Instr.op])
  case str d a =>
    simp only [exec, execStr, State.withContent_reg]
    exact State.storeReg_withContent d _ (by cases c <;> simp_all [Content.users, Instr.op])
  case ld d a => exact State.loadReg_withContent d _ h
  case st d a => exact State.storeReg_withContent d _ h
  case call n => exact execCall_withContent n h
  case ret => exact execRet_withContent h
  case cswap d e =>
    have hflag : (s.withContent c).flagC = s.flagC := by cases c <;> rfl
    simp only [exec, execCswap, hflag, State.swapIf_withContent, withContentAfter]
  case zswap d e =>
    have hflag : (s.withContent c).flagZ = s.flagZ := by cases c <;> rfl
    simp only [exec, execZswap, hflag, State.swapIf_withContent, withContentAfter]
  case scb | ldk | stk | kbo =>
    simp only [exec, execScb, execLdk, execStk, execKbo, apply_ite (withContentAfter c)]
    cases c <;> rfl
  case hash => exact execHash_withContent _ _ h
  case tmacIt | tmacIs =>
    simp only [exec, execTmacIt, execTmacIs, apply_ite (withContentAfter c)]
    cases c
    case tmac => simp [Content.users, Instr.op] at h
    all_goals rfl
  case hashIt =>
    simp only [exec, execHashIt]
    generalize sha512Init = v
    cases c
    case sha => simp [Content.users, Instr.op] at h
    all_goals rfl
  case tmacUp | tmacRd =>
    cases c
    case tmac => simp [Content.users, Instr.op] at h
    all_goals rfl
  case endFw =>
    cases c
    case done => simp [Content.users, Instr.op] at h
    all_goals rfl
  all_goals cases c <;> rfl

theorem exec_withContent_next {i : Instr} {t : State} (h : i.op ∉ c.users) (hi : exec i s = .next t) :
    exec i (s.withContent c) = .next (t.withContent c) := by
  rw [exec_withContent i h, hi, withContentAfter]

theorem exec_withContent_fault {i : Instr} {f : Fault} (h : i.op ∉ c.users) (hi : exec i s = .fault f) :
    exec i (s.withContent c) = .fault f := by
  rw [exec_withContent i h, hi, withContentAfter]

/-! ### What an instruction does not write -/

variable {t : State} {i : Instr}

theorem exec_keeps_mem (h : exec i s = .next t) (hop : i.op ∉ [.str, .st]) : t.mem = s.mem := by
  cases exec_shape i h
  case store hst => exact absurd hst hop
  all_goals rfl

theorem exec_keeps_rar (h : exec i s = .next t) (hop : i.op ∉ [.call, .ret]) : t.rar = s.rar := by
  cases exec_shape i h
  case call hcall => exact absurd hcall (by simp at hop; tauto)
  case ret hret => exact absurd hret (by simp at hop; tauto)
  all_goals rfl

theorem exec_keeps_sha (h : exec i s = .next t) (hop : i.op ∉ [.hash, .hashIt]) : t.sha = s.sha := by
  cases exec_shape i h
  case hash hhash => exact absurd hhash (by simp at hop; tauto)
  case hashIt hinit => exact absurd hinit (by simp at hop; tauto)
  all_goals rfl

theorem exec_keeps_tmac (h : exec i s = .next t) (hop : i.op ∉ [.tmacIt, .tmacIs, .tmacUp, .tmacRd]) :
    t.tmac = s.tmac := by
  cases exec_shape i h
  case tmac htmac => exact absurd htmac (by simp at hop ⊢; tauto)
  case tmacRd hread => exact absurd hread (by simp at hop; tauto)
  all_goals rfl

theorem exec_keeps_flagE (h : exec i s = .next t) (hop : i.op ∉ [.ldk, .stk, .kbo]) :
    t.flagE = s.flagE := by
  cases exec_shape i h
  case keyRead hread => exact absurd hread (by simp at hop; tauto)
  case keyReq hreq => exact absurd hreq (by simp at hop ⊢; tauto)
  all_goals rfl

end Sys2Proof.Machine

namespace Sys2Proof.Proofs

open Sys2Proof.Machine

/-- Settles O20: the three requests end by writing the error bit answered, the others keep E. -/
theorem errorFlagRule : Obligations.ErrorFlagRule := by
  intro i s t h
  cases i
  case ldk =>
    obtain ⟨-, err, data, hans, rfl⟩ := (execLdk_next _ _).mp h
    exact ⟨_, _, _, err, data, hans, rfl, rfl⟩
  case stk =>
    obtain ⟨-, err, hans, rfl⟩ := (execStk_next _ _).mp h
    exact ⟨_, _, _, _, err, hans, rfl, rfl⟩
  case kbo =>
    obtain ⟨-, err, hans, rfl⟩ := (execKbo_next _ _).mp h
    exact ⟨_, _, _, err, hans, rfl, rfl⟩
  all_goals exact exec_keeps_flagE h (by simp [Instr.op])

/-- Settles O21: only a store has the shape that writes the memory, and the memory is a part that four
instructions use. -/
theorem onlyLoadsAndStoresReachMemory : Obligations.OnlyLoadsAndStoresReachMemory :=
  ⟨fun _ _ _ hop h => exec_keeps_mem h hop, fun _ _ m hop =>
    ⟨fun _ => exec_withContent_next (c := .mem m) hop, fun _ => exec_withContent_fault (c := .mem m) hop⟩⟩

/-- Settles O22: RAR is a part that CALL and RET alone use and write. -/
theorem onlyCallAndRetTouchRar : Obligations.OnlyCallAndRetTouchRar := fun _ _ l hop =>
  ⟨fun _ h => ⟨exec_keeps_rar h hop, exec_withContent_next (c := .rar l) hop h⟩,
    fun _ => exec_withContent_fault (c := .rar l) hop⟩

/-- Settles O23: the SHA state is a part that HASH_IT and HASH alone use and write. -/
theorem onlyHashInstructionsTouchSha : Obligations.OnlyHashInstructionsTouchSha := fun _ _ v hop =>
  ⟨fun _ h => ⟨exec_keeps_sha h hop, exec_withContent_next (c := .sha v) hop h⟩,
    fun _ => exec_withContent_fault (c := .sha v) hop⟩

/-- Settles O24: the TMAC state is a part that its four instructions alone use and write. -/
theorem onlyTmacInstructionsTouchTmac : Obligations.OnlyTmacInstructionsTouchTmac := fun _ _ v hop =>
  ⟨fun _ h => ⟨exec_keeps_tmac h hop, exec_withContent_next (c := .tmac v) hop h⟩,
    fun _ => exec_withContent_fault (c := .tmac v) hop⟩

/-- Settles O25: only END uses STATUS[DONE], and END raises no fault. -/
theorem statusDoneRule : Obligations.StatusDoneRule := by
  have hunused : ∀ {i : Instr} {b : Bool}, i ≠ .endFw → i.op ∉ (Content.done b).users := by
    intro i b hi
    simpa [Content.users, op_eq_endFw_iff] using hi
  refine ⟨rfl, fun s t h => ?set, fun i s t hi h => ?written, fun i s t b hi h => ?read,
    fun i s f b h => ?fault⟩
  case set => cases h; rfl
  case written => exact exec_sameStatus h (op_eq_endFw_iff.not.mpr hi)
  case read => exact exec_withContent_next (c := .done b) (hunused hi) h
  case fault =>
    have hi : i ≠ .endFw := by rintro rfl; cases h
    exact exec_withContent_fault (c := .done b) (hunused hi) h

end Sys2Proof.Proofs

/-! PROOFS. The R and I instructions that write one register (R110 to R120, R130 to R139, R172 to R174,
R221 to R223, R240): what each shared result writes and leaves, the value of each operation, and the
statements assembled from these. -/

namespace Sys2Proof.Machine

variable {s t : State}

/-! ### The shared results: the register written and the frame -/

@[simp] theorem State.writeResult_reg (d : RegNo) (v : Val) : (s.writeResult d v).reg d = v := by
  simp [State.writeResult]

@[simp] theorem State.writeResultC_reg (d : RegNo) (v : Val) (c : Bool) :
    (s.writeResultC d v c).reg d = v := by
  simp [State.writeResultC]

theorem State.writeResult_sameFlags (d : RegNo) (v : Val) : SameFlags s (s.writeResult d v) :=
  ⟨rfl, rfl, rfl⟩

theorem State.advance_onlyRegs : OnlyRegs [] s s.advance := by
  refine ⟨fun _ _ => rfl, fun _ => rfl, ?rest, State.advance_pcValue s⟩
  simp [SameRest, SameUnits, SameOutside, SameStatus, SamePlatform]

theorem State.writeResult_onlyRegs (d : RegNo) (v : Val) : OnlyRegs [d] s (s.writeResult d v) := by
  refine ⟨fun r hr => State.setReg_reg_other s d r v (by simpa using hr), fun _ => rfl, ?rest,
    State.advance_pcValue _⟩
  simp [SameRest, SameUnits, SameOutside, SameStatus, SamePlatform, State.writeResult]

theorem State.writeResultC_onlyRegs (d : RegNo) (v : Val) (c : Bool) :
    OnlyRegs [d] s (s.writeResultC d v c) := by
  refine ⟨fun r hr => State.setReg_reg_other s d r v (by simpa using hr), fun _ => rfl, ?rest,
    State.advance_pcValue _⟩
  simp [SameRest, SameUnits, SameOutside, SameStatus, SamePlatform, State.writeResultC]

theorem State.compareResult_onlyRegs (d : Word) : OnlyRegs [] s (s.compareResult d) := by
  refine ⟨fun _ _ => rfl, fun _ => rfl, ?rest, State.advance_pcValue _⟩
  simp [SameRest, SameUnits, SameOutside, SameStatus, SamePlatform, State.compareResult]

theorem State.swapIf_onlyRegs (b : Bool) (d e : RegNo) : OnlyRegs [d, e] s (s.swapIf b d e) := by
  refine ⟨fun r hr => ?regs, fun _ => ?mem, ?rest, ?pc⟩
  case regs =>
    simp only [List.mem_cons, List.not_mem_nil, or_false, not_or] at hr
    simp [State.swapIf_reg, hr]
  case mem => cases b <;> rfl
  case rest => cases b <;> simp [SameRest, SameUnits, SameOutside, SameStatus, SamePlatform, State.swapIf]
  case pc => cases b <;> exact State.advance_pcValue _

theorem State.swapIf_sameFlags (b : Bool) (d e : RegNo) : SameFlags s (s.swapIf b d e) := by
  cases b <;> exact ⟨rfl, rfl, rfl⟩

/-- A swap exchanges the two registers; with one register twice it keeps it (R173). -/
theorem State.swapIf_true_reg (d e : RegNo) :
    (s.swapIf true d e).reg d = s.reg e ∧ (s.swapIf true d e).reg e = s.reg d := by
  by_cases h : d = e
  · subst h; simp [State.swapIf_reg]
  · simp [State.swapIf_reg, h]

/-! ### 32-bit arithmetic (R110) -/

@[simp] theorem zext256_toNat (w : Word) : (zext256 w).toNat = w.toNat := by
  rw [zext256, BitVec.toNat_setWidth]
  omega

/-- The 32-bit difference as an integer, modulo 2^32. -/
theorem toNat_sub_word (v w : Word) : ((v - w).toNat : Int) = ((v.toNat : Int) - w.toNat) % 2 ^ 32 := by
  rw [BitVec.toNat_sub]
  omega

@[simp] theorem immVal_toNat (imm : Imm) : (immVal imm).toNat = imm.toNat := by
  rw [immVal, BitVec.toNat_setWidth]
  omega

/-! ### Single bits (R119, R120) -/

@[simp] theorem bitNumber_eq (v : Val) : bitNumber v = v.toNat % 256 := by
  simp [bitNumber]

theorem oneBit_getLsbD {n k : Nat} (hk : k < 256) : (oneBit n).getLsbD k = decide (k = n) := by
  rw [oneBit, BitVec.getLsbD_shiftLeft, BitVec.getLsbD_one]
  grind

/-! ### Shifts by one bit or one byte, as numbers (R131 to R138) -/

/-- `a[n-1:0] || b`: a shift to the left that drops the top bits and lets `b` in. -/
theorem toNat_low_append {n m : Nat} (a : BitVec (n + m)) (b : BitVec m) :
    (a.extractLsb' 0 n ++ b).toNat = a.toNat * 2 ^ m % 2 ^ (n + m) + b.toNat := by
  rw [BitVec.toNat_append, ← Nat.shiftLeft_add_eq_or_of_lt b.isLt, BitVec.extractLsb'_toNat,
    Nat.shiftLeft_eq, Nat.shiftRight_zero, Nat.pow_add, Nat.mul_mod_mul_right]

/-- The top `n` bits as a number. -/
theorem toNat_extract_top {n m : Nat} (a : BitVec (m + n)) :
    (a.extractLsb' m n).toNat = a.toNat / 2 ^ m := by
  have hfits : a.toNat / 2 ^ m < 2 ^ n := by
    rw [Nat.div_lt_iff_lt_mul (by positivity), mul_comm, ← pow_add]
    exact a.isLt
  rw [BitVec.extractLsb'_toNat, Nat.shiftRight_eq_div_pow, Nat.mod_eq_of_lt hfits]

/-- `b || a[n+m-1:m]`: a shift to the right that drops the low bits and lets `b` in. -/
theorem toNat_append_high {n m : Nat} (b : BitVec m) (a : BitVec (m + n)) :
    (b ++ a.extractLsb' m n).toNat = a.toNat / 2 ^ m + b.toNat * 2 ^ n := by
  rw [BitVec.toNat_append, ← Nat.shiftLeft_add_eq_or_of_lt (BitVec.isLt _), toNat_extract_top,
    Nat.shiftLeft_eq, add_comm]

theorem topBit_toNat (a : Val) : (a.extractLsb' 255 1).toNat = a.toNat / 2 ^ 255 :=
  toNat_extract_top (m := 255) (n := 1) a

theorem bottomBit_toNat (a : Val) : (a.extractLsb' 0 1).toNat = a.toNat % 2 := by
  simp

theorem topByte_toNat (a : Val) : (topByte a).toNat = a.toNat / 2 ^ 248 :=
  toNat_extract_top (m := 248) (n := 8) a

theorem bottomByte_toNat (a : Val) : (bottomByte a).toNat = a.toNat % 256 := by
  simp [bottomByte]

theorem shiftInLow_toNat (a : Val) (b : BitVec 1) :
    (shiftInLow a b).toNat = a.toNat * 2 % 2 ^ 256 + b.toNat := by
  have h := toNat_low_append (n := 255) (m := 1) a b
  rwa [pow_one] at h

theorem shiftInHigh_toNat (b : BitVec 1) (a : Val) :
    (shiftInHigh b a).toNat = a.toNat / 2 + b.toNat * 2 ^ 255 := toNat_append_high (n := 255) b a

theorem byteInLow_toNat (a : Val) (b : BitVec 8) :
    (byteInLow a b).toNat = a.toNat * 256 % 2 ^ 256 + b.toNat := by
  have h := toNat_low_append (n := 248) (m := 8) a b
  rwa [show 2 ^ 8 = 256 from rfl] at h

theorem byteInHigh_toNat (b : BitVec 8) (a : Val) :
    (byteInHigh b a).toNat = a.toNat / 256 + b.toNat * 2 ^ 248 := toNat_append_high (n := 248) b a

/-! ### The byte swap (R139) -/

/-- One byte move of SWE, seen at byte `31 - k`. -/
theorem movedByte_extract {n k : Nat} (b : BitVec 8) (hn : n < 32) (hk : k < 32) :
    (b.setWidth 256 <<< (8 * (31 - n)) : Val).extractLsb' (8 * (31 - k)) 8 = if k = n then b else 0 := by
  apply BitVec.eq_of_getLsbD_eq
  intro j hj
  have hin : 8 * (31 - k) + j < 256 := by omega
  rw [BitVec.getLsbD_extractLsb', BitVec.getLsbD_shiftLeft, BitVec.getLsbD_setWidth]
  rcases Nat.lt_trichotomy k n with hlt | rfl | hgt
  · have hpast : 8 ≤ 8 * (31 - k) + j - 8 * (31 - n) := by omega
    simp [BitVec.getLsbD_of_ge b _ hpast, hlt.ne]
  · simp [hj, hin, show j < 256 by omega]
  · have hbefore : 8 * (31 - k) + j < 8 * (31 - n) := by omega
    simp [hbefore, hgt.ne']

/-- After `n` moves byte `31 - k` holds byte `k` of the source for `k < n`, and is 0 otherwise. -/
theorem swapBytes_extract (a : Val) {n k : Nat} (hn : n ≤ 32) (hk : k < 32) :
    (swapBytes a n).extractLsb' (8 * (31 - k)) 8 = if k < n then a.extractLsb' (8 * k) 8 else 0 := by
  induction n with
  | zero => simp [swapBytes]
  | succ n ih =>
    rw [swapBytes, BitVec.extractLsb'_or, ih (by omega), movedByte_extract _ (by omega) hk]
    rcases Nat.lt_trichotomy k n with hlt | rfl | hgt
    · simp [hlt, hlt.ne, show k < n + 1 by omega]
    · simp
    · simp [show ¬ k < n by omega, show ¬ k < n + 1 by omega, hgt.ne']

/-- Values with the same 32 bytes are the same. -/
theorem byte_ext {v w : Val} (h : ∀ k < 32, v.extractLsb' (8 * k) 8 = w.extractLsb' (8 * k) 8) : v = w := by
  apply BitVec.eq_of_getLsbD_eq
  intro i hi
  have hbyte := congrArg (fun x => x.getLsbD (i % 8)) (h (i / 8) (by omega))
  have hlt : i % 8 < 8 := Nat.mod_lt _ (by omega)
  simpa [hlt, Nat.div_add_mod] using hbyte

theorem swapBytes_swapBytes (a : Val) : swapBytes (swapBytes a 32) 32 = a := by
  apply byte_ext
  intro k hk
  have hback : 31 - (31 - k) = k := by omega
  have houter := swapBytes_extract (swapBytes a 32) (Nat.le_refl 32) (k := 31 - k) (by omega)
  have hinner := swapBytes_extract a (Nat.le_refl 32) hk
  rw [hback, if_pos (by omega)] at houter
  rw [houter, hinner, if_pos hk]

end Sys2Proof.Machine
namespace Sys2Proof.Proofs

open Sys2Proof.Machine

/-- Settles O26: a result with Z whose value is the 32-bit sum or difference. -/
theorem addAndSubResults : Obligations.AddAndSubResults := by
  intro op1 op2 op3 s
  refine ⟨⟨_, rfl, ?sum, State.writeResultZ_flagZ_iff _ _, rfl, rfl, State.writeResultZ_onlyRegs _ _⟩,
    ⟨_, rfl, ?difference, State.writeResultZ_flagZ_iff _ _, rfl, rfl, State.writeResultZ_onlyRegs _ _⟩⟩
  case sum => rw [State.writeResultZ_reg, zext256_toNat, BitVec.toNat_add, low32_toNat, low32_toNat]
  case difference =>
    rw [State.writeResultZ_reg, zext256_toNat, toNat_sub_word, low32_toNat, low32_toNat]
    push_cast
    rfl

/-- Settles O27: as ADD and SUB, with the Immediate for op3. -/
theorem addiAndSubiResults : Obligations.AddiAndSubiResults := by
  intro op1 op2 imm s
  refine ⟨⟨_, rfl, ?sum, State.writeResultZ_flagZ_iff _ _, rfl, rfl, State.writeResultZ_onlyRegs _ _⟩,
    ⟨_, rfl, ?difference, State.writeResultZ_flagZ_iff _ _, rfl, rfl, State.writeResultZ_onlyRegs _ _⟩⟩
  case sum => rw [State.writeResultZ_reg, zext256_toNat, BitVec.toNat_add, low32_toNat, immWord_toNat]
  case difference =>
    rw [State.writeResultZ_reg, zext256_toNat, toNat_sub_word, low32_toNat, immWord_toNat]
    push_cast
    rfl

/-- Settles O28: Z is the zero test of a 32-bit difference, which is 0 when the two words are equal. -/
theorem compareResults : Obligations.CompareResults := by
  intro op2 op3 imm s
  refine ⟨⟨_, rfl, ?cmp, rfl, rfl, State.compareResult_onlyRegs _⟩,
    ⟨_, rfl, ?cmpi, rfl, rfl, State.compareResult_onlyRegs _⟩⟩
  case cmp => rw [State.compareResult_sub_flagZ_iff, low32_toNat, low32_toNat]
  case cmpi => rw [State.compareResult_sub_flagZ_iff, low32_toNat, immWord_toNat]

/-- Settles O29: a result with Z, bit by bit. -/
theorem logicResults : Obligations.LogicResults := by
  intro op1 op2 op3 s
  refine ⟨⟨_, rfl, fun k hk => ?and, State.writeResultZ_flagZ_iff _ _, rfl, rfl,
      State.writeResultZ_onlyRegs _ _⟩,
    ⟨_, rfl, fun k hk => ?or, State.writeResultZ_flagZ_iff _ _, rfl, rfl,
      State.writeResultZ_onlyRegs _ _⟩,
    ⟨_, rfl, fun k hk => ?xor, State.writeResultZ_flagZ_iff _ _, rfl, rfl,
      State.writeResultZ_onlyRegs _ _⟩,
    ⟨_, rfl, fun k hk => ?not, State.writeResultZ_flagZ_iff _ _, rfl, rfl,
      State.writeResultZ_onlyRegs _ _⟩⟩
  case and => rw [State.writeResultZ_reg, BitVec.getLsbD_and]
  case or => rw [State.writeResultZ_reg, BitVec.getLsbD_or]
  case xor => rw [State.writeResultZ_reg, BitVec.getLsbD_xor]
  case not => rw [State.writeResultZ_reg, BitVec.getLsbD_not, decide_eq_true hk, Bool.true_and]

/-- Settles O30: `1 << n` has the one bit `n`, so that it sets or clears that bit alone. -/
theorem bitSetAndClearResults : Obligations.BitSetAndClearResults := by
  intro op1 op2 op3 s
  refine ⟨⟨_, rfl, fun k hk => ?set, State.writeResult_sameFlags _ _, State.writeResult_onlyRegs _ _⟩,
    ⟨_, rfl, fun k hk => ?clear, State.writeResult_sameFlags _ _, State.writeResult_onlyRegs _ _⟩⟩
  case set =>
    rw [State.writeResult_reg, BitVec.getLsbD_or, oneBit_getLsbD hk, bitNumber_eq]
    split <;> simp_all
  case clear =>
    rw [State.writeResult_reg, BitVec.getLsbD_and, BitVec.getLsbD_not, oneBit_getLsbD hk, bitNumber_eq]
    split <;> simp_all

/-- Settles O32: one bit enters at one end, and C is the bit that leaves at the other. -/
theorem oneBitShiftResults : Obligations.OneBitShiftResults := by
  intro op1 op2 s
  refine ⟨⟨_, rfl, ?lsl, rfl, rfl, rfl, State.writeResultC_onlyRegs _ _ _⟩,
    ⟨_, rfl, ?lsr, rfl, rfl, rfl, State.writeResultC_onlyRegs _ _ _⟩,
    ⟨_, rfl, ?rol, rfl, rfl, rfl, State.writeResultC_onlyRegs _ _ _⟩,
    ⟨_, rfl, ?ror, rfl, rfl, rfl, State.writeResultC_onlyRegs _ _ _⟩⟩
  case lsl => rw [State.writeResultC_reg, shiftInLow_toNat]; rfl
  case lsr => rw [State.writeResultC_reg, shiftInHigh_toNat]; simp
  case rol => rw [State.writeResultC_reg, shiftInLow_toNat, topBit_toNat]
  case ror => rw [State.writeResultC_reg, shiftInHigh_toNat, bottomBit_toNat]

/-- Settles O33: one byte enters at one end: the one that leaves, or one of op3. -/
theorem byteRotateResults : Obligations.ByteRotateResults := by
  intro op1 op2 op3 s
  refine ⟨⟨_, rfl, ?rol8, State.writeResult_sameFlags _ _, State.writeResult_onlyRegs _ _⟩,
    ⟨_, rfl, ?ror8, State.writeResult_sameFlags _ _, State.writeResult_onlyRegs _ _⟩,
    ⟨_, rfl, ?rolin, State.writeResult_sameFlags _ _, State.writeResult_onlyRegs _ _⟩,
    ⟨_, rfl, ?rorin, State.writeResult_sameFlags _ _, State.writeResult_onlyRegs _ _⟩⟩
  case rol8 | rolin => rw [State.writeResult_reg, byteInLow_toNat, topByte_toNat]
  case ror8 | rorin => rw [State.writeResult_reg, byteInHigh_toNat, bottomByte_toNat]

/-- Settles O34: each of the 32 byte moves fills one byte, and reversing the order twice restores it. -/
theorem byteSwapResult : Obligations.ByteSwapResult := by
  intro op1 op2 s
  refine ⟨_, rfl, fun k hk => ?bytes, State.writeResult_sameFlags _ _, State.writeResult_onlyRegs _ _,
    _, rfl, ?twice⟩
  case bytes => rw [State.writeResult_reg, swapBytes_extract _ (Nat.le_refl 32) hk, if_pos hk]
  case twice => rw [State.writeResult_reg, State.writeResult_reg, swapBytes_swapBytes]

/-- Settles O35: a result without flags whose value is op2 or the Immediate. -/
theorem moveResults : Obligations.MoveResults := by
  intro op1 op2 imm s
  refine ⟨⟨_, rfl, State.writeResult_reg _ _, State.writeResult_sameFlags _ _,
      State.writeResult_onlyRegs _ _⟩,
    ⟨_, rfl, ?value, State.writeResult_sameFlags _ _, State.writeResult_onlyRegs _ _⟩⟩
  rw [State.writeResult_reg, immVal_toNat]

/-- What CSWAP and ZSWAP share, for either value of the flag `b` (R173, R174). -/
theorem swapIf_results (s : State) (b : Bool) (op1 op2 : RegNo) :
    let t := s.swapIf b op1 op2
    (b = true → t.reg op1 = s.reg op2 ∧ t.reg op2 = s.reg op1) ∧ (b = false → t.regs = s.regs) ∧
      SameFlags s t ∧ OnlyRegs [op1, op2] s t := by
  refine ⟨?swap, ?keep, State.swapIf_sameFlags _ _ _, State.swapIf_onlyRegs _ _ _⟩
  case swap => rintro rfl; exact State.swapIf_true_reg op1 op2
  case keep => rintro rfl; rfl

/-- Settles O36: one operation with the flag C or Z as its condition. -/
theorem conditionalSwapResults : Obligations.ConditionalSwapResults := fun op1 op2 s =>
  ⟨⟨_, rfl, swapIf_results s s.flagC op1 op2⟩, ⟨_, rfl, swapIf_results s s.flagZ op1 op2⟩⟩

end Sys2Proof.Proofs

/-! PROOFS. Modular arithmetic (R150 to R158): the residue written, as a bound and a divisibility, and the
fault of a zero modulus. -/

namespace Sys2Proof.Machine

variable {s : State}

theorem mulMod_toNat {m : Nat} (a b : Val) (h0 : 0 < m) (h : m ≤ 2 ^ 256) :
    (mulMod a b m).toNat = a.toNat * b.toNat % m := by
  rw [mulMod, BitVec.toNat_ofNat]
  exact Nat.mod_eq_of_lt ((Nat.mod_lt _ h0).trans_le h)

/-- With R31 not 0, a modular instruction writes the least non-negative residue of the exact integer: a
number below the modulus that differs from the exact one by a multiple of the modulus (R150, R158). -/
theorem State.modularResult_residue (op1 : RegNo) (u : Int) (h : s.reg 31 ≠ 0) :
    ∃ t, s.modularResult op1 u = .next t ∧ (t.reg op1).toNat < (s.reg 31).toNat ∧
      ((s.reg 31).toNat : Int) ∣ u - (t.reg op1).toNat ∧ SameFlags s t ∧ OnlyRegs [op1] s t := by
  refine ⟨_, (s.modularResult_next _).mpr ⟨h, rfl⟩, ?below, ?multiple, State.writeResult_sameFlags _ _,
    State.writeResult_onlyRegs _ _⟩
  case below =>
    have hpos : 0 < ((s.reg 31).toNat : Int) :=
      Int.natCast_pos.mpr (Nat.pos_of_ne_zero fun hz => h (BitVec.eq_of_toNat_eq hz))
    rw [State.writeResult_reg, ← Int.ofNat_lt]
    exact (residue_toNat u (s.reg 31) h).trans_lt (Int.emod_lt_of_pos _ hpos)
  case multiple =>
    rw [State.writeResult_reg]
    exact (residue_toNat u (s.reg 31) h).symm ▸ Int.dvd_self_sub_emod

theorem State.modularResult_zero (op1 : RegNo) (u : Int) (h : s.reg 31 = 0) :
    s.modularResult op1 u = .fault (.zeroModulus s.pcValue) :=
  if_pos h

/-- `op2 || op3` as a number (R156). -/
theorem toNat_append_val (a b : Val) :
    ((a ++ b : BitVec 512).toNat : Int) = a.toNat * 2 ^ 256 + b.toNat := by
  have h : (a ++ b).toNat = a.toNat * 2 ^ 256 + b.toNat := by
    rw [BitVec.toNat_append, ← Nat.shiftLeft_add_eq_or_of_lt b.isLt, Nat.shiftLeft_eq]
  exact_mod_cast h

end Sys2Proof.Machine

namespace Sys2Proof.Proofs

open Sys2Proof.Machine

/-- Settles O37: the residue of the exact product fits 256 bits. -/
theorem fixedModulusProducts : Obligations.FixedModulusProducts := by
  intro op1 op2 op3 s
  refine ⟨⟨_, rfl, ?mul25519, State.writeResult_sameFlags _ _, State.writeResult_onlyRegs _ _⟩,
    ⟨_, rfl, ?mul256, State.writeResult_sameFlags _ _, State.writeResult_onlyRegs _ _⟩⟩
  case mul25519 =>
    rw [State.writeResult_reg, mulMod_toNat _ _ (by decide) (by decide)]
    rfl
  case mul256 =>
    rw [State.writeResult_reg, mulMod_toNat _ _ (by decide) (by decide)]
    rfl

/-- Settles O38: the four instructions give the residue of their exact integers. -/
theorem genericModularResults : Obligations.GenericModularResults := by
  intro op1 op2 op3 s h
  refine ⟨State.modularResult_residue op1 _ h, State.modularResult_residue op1 _ h,
    State.modularResult_residue op1 _ h, ?redp⟩
  rw [← toNat_append_val]
  exact State.modularResult_residue op1 _ h

/-- Settles O39: the shared operation tests R31 first, and the fixed moduli have no test. -/
theorem zeroModulusFaults : Obligations.ZeroModulusFaults := by
  refine ⟨fun op1 op2 op3 s h => ?zero, fun op1 op2 op3 s f => ⟨nofun, nofun⟩⟩
  exact ⟨State.modularResult_zero _ _ h, State.modularResult_zero _ _ h,
    State.modularResult_zero _ _ h, State.modularResult_zero _ _ h⟩

end Sys2Proof.Proofs

/-! PROOFS. Loads and stores (R50 to R67, R170, R171, R260, R261): when the checks pass and which one
fails first, what is read and written, and that a load sees the last store. -/

namespace Sys2Proof.Machine

variable {s t : State}

/-! ### The checks -/

theorem State.canRead_iff {ea : Nat} :
    s.CanRead ea ↔ blockFault s.readAdmitted s.pcValue ea = none :=
  blockFault_none_iff.symm

theorem State.canWrite_iff {ea : Nat} :
    s.CanWrite ea ↔ blockFault s.writeAdmitted s.pcValue ea = none :=
  blockFault_none_iff.symm

/-- The first word that fails a check decides the fault of the block (R303). -/
theorem blockFault_of_first {admitted : Nat → Bool} {pc a k : Nat} {f : Fault} (hk : k < 8)
    (hbefore : ∀ j < k, wordFault admitted pc (a + 4 * j) = none)
    (hfail : wordFault admitted pc (a + 4 * k) = some f) : blockFault admitted pc a = some f := by
  refine List.findSome?_eq_some_iff.mpr ⟨(List.range k).map (4 * ·), 4 * k,
    (List.range (7 - k)).map (4 * (k + 1 + ·)), ?_, hfail, ?_⟩
  · interval_cases k <;> rfl
  · intro d hd
    obtain ⟨j, hj, rfl⟩ := List.mem_map.mp hd
    exact hbefore j (List.mem_range.mp hj)

/-- The three checks on the first word that fails one, in their order (R55, R56, R303), for any
instruction that raises the fault of its block. -/
theorem first_failing_word {i : Instr} {ea : Nat} {admitted : Nat → Bool}
    (hi : ∀ f, blockFault admitted s.pcValue ea = some f → exec i s = .fault f) {k : Nat} (hk : k < 8)
    (hbefore : ∀ j < k, ea + 4 * j ≤ 0xFFFC ∧ (ea + 4 * j) % 4 = 0 ∧ admitted (ea + 4 * j) = true) :
    (0xFFFC < ea + 4 * k → exec i s = .fault (.addressOutOfRange s.pcValue (ea + 4 * k))) ∧
      (ea + 4 * k ≤ 0xFFFC → (ea + 4 * k) % 4 ≠ 0 →
        exec i s = .fault (.misalignedAccess s.pcValue (ea + 4 * k))) ∧
      (ea + 4 * k ≤ 0xFFFC → (ea + 4 * k) % 4 = 0 → admitted (ea + 4 * k) = false →
        exec i s = .fault (.accessNotAdmitted s.pcValue (ea + 4 * k))) := by
  have hfirst : ∀ f, wordFault admitted s.pcValue (ea + 4 * k) = some f → exec i s = .fault f :=
    fun f hf => hi f (blockFault_of_first hk (fun j hj => wordFault_none.mpr (hbefore j hj)) hf)
  refine ⟨fun hrange => hfirst _ ?_, fun hrange halign => hfirst _ ?_,
    fun hrange halign hadm => hfirst _ ?_⟩
  · rw [wordFault, if_pos hrange]
  · rw [wordFault, if_neg (by omega), if_pos halign]
  · rw [wordFault, if_neg (by omega), if_neg (by omega), hadm, if_neg Bool.false_ne_true]

/-- An access that passes the checks touches no program text (R52, R67). -/
theorem word_none_of_readable {pc ea k : Nat} (h : blockFault s.readAdmitted pc ea = none) (hk : k < 8) :
    s.imem.word (ea + 4 * k) = none := by
  have hadm := (blockFault_none_iff.mp h).2.2 k hk
  simp only [State.readAdmitted, Bool.and_eq_true, Option.isNone_iff_eq_none] at hadm
  exact hadm.2

theorem word_none_of_writable {pc ea k : Nat} (h : blockFault s.writeAdmitted pc ea = none) (hk : k < 8) :
    s.imem.word (ea + 4 * k) = none := by
  have hadm := (blockFault_none_iff.mp h).2.2 k hk
  simp only [State.writeAdmitted, Bool.and_eq_true, Option.isNone_iff_eq_none] at hadm
  exact hadm.2

/-! ### What a load reads and a store writes -/

theorem State.loadReg_results (op1 : RegNo) {ea : Nat} (h : s.CanRead ea) :
    ∃ t, s.loadReg op1 ea = .next t ∧
      (∀ k < 8, (t.reg op1).extractLsb' (32 * k) 32 = s.mem.getWord s.byteOrder (ea + 4 * k)) ∧
      SameFlags s t ∧ OnlyRegs [op1] s t := by
  refine ⟨s.writeResult op1 _, (s.loadReg_next _).mpr ⟨State.canRead_iff.mp h, rfl⟩, fun k hk => ?_,
    State.writeResult_sameFlags _ _, State.writeResult_onlyRegs _ _⟩
  rw [State.writeResult_reg]
  exact Memory.getBlock_word _ _ _ _ hk

theorem State.storeReg_results (op1 : RegNo) {ea : Nat} (h : s.CanWrite ea) :
    ∃ t, s.storeReg op1 ea = .next t ∧
      (∀ k < 8, t.mem.getWord t.byteOrder (ea + 4 * k) = (s.reg op1).extractLsb' (32 * k) 32) ∧
      SameMemOutside ea 32 s t ∧ SameRegsBut [] s t ∧ SameFlags s t ∧ SameRest s t ∧ Advanced s t := by
  refine ⟨_, (s.storeReg_next _).mpr ⟨State.canWrite_iff.mp h, rfl⟩,
    fun k hk => Memory.getWord_setBlock _ _ _ _ _ hk, fun a ha => Memory.get_setBlock_other _ _ _ _ _ ha,
    fun _ _ => rfl, ⟨rfl, rfl, rfl⟩, ?rest, State.advance_pcValue _⟩
  simp [SameRest, SameUnits, SameOutside, SameStatus, SamePlatform]

/-- A load through the words of a store that completed gives the value stored (R65). -/
theorem State.loadReg_of_storeReg {op1 d : RegNo} {ea : Nat} (hst : s.storeReg op1 ea = .next t)
    (hread : s.CanRead ea) : ∃ u, t.loadReg d ea = .next u ∧ u.reg d = s.reg op1 := by
  obtain ⟨-, rfl⟩ := (s.storeReg_next t).mp hst
  refine ⟨_, (State.loadReg_next _ _).mpr ⟨State.canRead_iff.mp hread, rfl⟩, ?_⟩
  simp

end Sys2Proof.Machine

namespace Sys2Proof.Proofs

open Sys2Proof.Machine

/-- Settles O40: one operation with two effective addresses. -/
theorem loadResults : Obligations.LoadResults := fun op1 _ _ _ =>
  ⟨State.loadReg_results op1, State.loadReg_results op1⟩

/-- Settles O41: one operation with two effective addresses. -/
theorem storeResults : Obligations.StoreResults := fun op1 _ _ _ =>
  ⟨State.storeReg_results op1, State.storeReg_results op1⟩

/-- Settles O42: each of the four instructions raises the fault of its block. -/
theorem accessFaultOrder : Obligations.AccessFaultOrder := by
  intro op1 op2 addr s i ea admitted hi k hk hbefore
  refine first_failing_word (fun f hf => ?_) hk hbefore
  rcases hi with ⟨rfl, rfl, rfl⟩ | ⟨rfl, rfl, rfl⟩ | ⟨rfl, rfl, rfl⟩ | ⟨rfl, rfl, rfl⟩
  · exact s.loadReg_fault.mpr hf
  · exact s.loadReg_fault.mpr hf
  · exact s.storeReg_fault.mpr hf
  · exact s.storeReg_fault.mpr hf

/-- Settles O43: what completes passed the checks on all eight words, and an admitted word is no program
text. -/
theorem programTextIsOutOfReach : Obligations.ProgramTextIsOutOfReach := by
  intro op1 op2 addr s t k hk
  constructor <;> rintro (hload | hstore)
  · exact word_none_of_readable ((s.loadReg_next t).mp hload).1 hk
  · exact word_none_of_writable ((s.storeReg_next t).mp hstore).1 hk
  · exact word_none_of_readable ((s.loadReg_next t).mp hload).1 hk
  · exact word_none_of_writable ((s.storeReg_next t).mp hstore).1 hk

/-- Settles O44: the block just written reads as written, and a store leaves the registers alone. -/
theorem loadSeesLastStore : Obligations.LoadSeesLastStore := by
  intro op1 d r addr s t hst hread
  refine ⟨State.loadReg_of_storeReg hst hread, fun haddr => ?_⟩
  have hreg : t.reg r = s.reg r := by
    obtain ⟨-, rfl⟩ := (s.storeReg_next t).mp hst
    rfl
  rw [exec, execLdr, hreg, haddr]
  exact State.loadReg_of_storeReg hst hread

end Sys2Proof.Proofs

/-! PROOFS. The units (R190 to R208, R241, R242): register groups and pairs, the hash, TMAC, random and
blinding instructions with their frames, and SHA-512 of "abc". -/

namespace Sys2Proof.Machine

variable {s : State}

/-! ### Slices -/

/-- A slice of a slice. -/
theorem extract_extract {n l m p q : Nat} (x : BitVec n) (h : p + q ≤ l) :
    (x.extractLsb' m l).extractLsb' p q = x.extractLsb' (m + p) q := by
  ext k hk
  have hin : p + k < l := by omega
  simp [hin, Nat.add_assoc]

/-- A slice inside register `r + k` of a group (R190). -/
theorem State.regGroup_extract (r : RegNo) {k p q : Nat} (hk : k < 4) (h : p + q ≤ 256) :
    (s.regGroup r).extractLsb' (256 * k + p) q = (s.reg (r + BitVec.ofNat 5 k)).extractLsb' p q := by
  have hstart : 256 * k + p - 256 * k = p := by omega
  unfold State.regGroup
  interval_cases k
  · rw [BitVec.extractLsb'_append_eq_of_add_le (by omega)]
    simp
  · rw [BitVec.extractLsb'_append_eq_of_le (by omega),
      BitVec.extractLsb'_append_eq_of_add_le (by omega), hstart]
    rfl
  · rw [BitVec.extractLsb'_append_eq_of_le (by omega), BitVec.extractLsb'_append_eq_of_le (by omega),
      BitVec.extractLsb'_append_eq_of_add_le (by omega), Nat.sub_sub, hstart]
    rfl
  · rw [BitVec.extractLsb'_append_eq_of_le (by omega), BitVec.extractLsb'_append_eq_of_le (by omega),
      BitVec.extractLsb'_append_eq_of_le (by omega), Nat.sub_sub, Nat.sub_sub, hstart]
    rfl

theorem State.regGroup_extract_reg (r : RegNo) {k : Nat} (hk : k < 4) :
    (s.regGroup r).extractLsb' (256 * k) 256 = s.reg (r + BitVec.ofNat 5 k) :=
  (State.regGroup_extract r (p := 0) hk (Nat.le_refl 256)).trans BitVec.extractLsb'_eq_self

theorem State.regGroup_extract_first (r : RegNo) : (s.regGroup r).extractLsb' 0 256 = s.reg r := by
  simpa using State.regGroup_extract_reg (s := s) r (k := 0) (by decide)

/-! ### Register pairs (R194, R208) -/

theorem succ_reg_ne (r : RegNo) : r ≠ r + 1 := by
  revert r; decide

theorem State.setRegPair_low (r : RegNo) (v : BitVec 512) :
    (s.setRegPair r v).reg r = v.extractLsb' 0 256 := by
  rw [State.setRegPair_reg, if_neg (succ_reg_ne r), if_pos rfl]

theorem State.setRegPair_high (r : RegNo) (v : BitVec 512) :
    (s.setRegPair r v).reg (r + 1) = v.extractLsb' 256 256 := by
  rw [State.setRegPair_reg, if_pos rfl]

theorem State.setRegPair_sameRegsBut (r : RegNo) (v : BitVec 512) :
    SameRegsBut [r, r + 1] s (s.setRegPair r v) := by
  intro q hq
  simp only [List.mem_cons, List.not_mem_nil, or_false, not_or] at hq
  rw [State.setRegPair_reg, if_neg hq.2, if_neg hq.1]

/-- The next state of SCB, whatever the blinded value. -/
theorem State.setRegPair_advance_onlyRegs (r : RegNo) (v : BitVec 512) :
    OnlyRegs [r, r + 1] s (s.setRegPair r v).advance := by
  refine ⟨State.setRegPair_sameRegsBut r v, fun _ => rfl, ?rest, State.advance_pcValue _⟩
  simp [SameRest, SameUnits, SameOutside, SameStatus, SamePlatform, State.setRegPair]

/-- The next state of HASH, whatever the value hashed (R194). -/
theorem State.hashed_results (r : RegNo) (v : BitVec 512) :
    let t := ((s.setSha v).setRegPair r v).advance
    t.sha = v ∧ t.reg r = t.sha.extractLsb' 0 256 ∧ t.reg (r + 1) = t.sha.extractLsb' 256 256 ∧
      t.tmac = s.tmac ∧ SameRegsBut [r, r + 1] s t ∧ SameFlags s t ∧ SameMem s t ∧
      t.rar = s.rar ∧ SameOutside s t ∧ SameStatus s t ∧ SamePlatform s t ∧ Advanced s t :=
  ⟨rfl, State.setRegPair_low r v, State.setRegPair_high r v, rfl, State.setRegPair_sameRegsBut r v,
    ⟨rfl, rfl, rfl⟩, fun _ => rfl, rfl, ⟨rfl, rfl⟩, ⟨rfl, rfl⟩, ⟨rfl, rfl, rfl, rfl, rfl, rfl⟩,
    State.advance_pcValue _⟩

/-- The frame of an instruction that changes the TMAC state only (R197). -/
theorem State.setTmac_results (v : TmacState) :
    let t := (s.setTmac v).advance
    t.tmac = v ∧ t.sha = s.sha ∧ t.regs = s.regs ∧ SameFlags s t ∧ SameMem s t ∧ t.rar = s.rar ∧
      SameOutside s t ∧ SameStatus s t ∧ SamePlatform s t ∧ Advanced s t :=
  ⟨rfl, rfl, rfl, ⟨rfl, rfl, rfl⟩, fun _ => rfl, rfl, ⟨rfl, rfl⟩, ⟨rfl, rfl⟩,
    ⟨rfl, rfl, rfl, rfl, rfl, rfl⟩, State.advance_pcValue _⟩

theorem State.setReg_sameRegsBut (r : RegNo) (v : Val) : SameRegsBut [r] s (s.setReg r v) :=
  fun q hq => State.setReg_reg_other s r q v (by simpa using hq)

theorem initstringImmOk_of_lt {imm : Imm} (h : imm.toNat < 256) : initstringImmOk imm = true := by
  have hzero : imm.extractLsb' 8 4 = 0 := by
    apply BitVec.eq_of_toNat_eq
    rw [BitVec.extractLsb'_toNat, Nat.shiftRight_eq_div_pow, Nat.div_eq_of_lt h]
    rfl
  rw [initstringImmOk, hzero]
  rfl

theorem initstringN_eq (imm : Imm) : initstringN imm = imm.setWidth 8 :=
  BitVec.setWidth_eq_extractLsb' (by decide) |>.symm

theorem tmacBlock_eq (v : Val) : tmacBlock v = v.setWidth 144 :=
  BitVec.setWidth_eq_extractLsb' (by decide) |>.symm

/-! ### SHA-512 of "abc" (R194) -/

/-- The message "abc" padded to one block (R194). -/
def abcBlock : BitVec 1024 :=
  0x6162638000000000000000000000000000000000000000000000000000000000#256 ++ 0#256 ++ 0#256 ++ 0x18#256

theorem sha512Compress_abcBlock : sha512Compress sha512Init abcBlock =
    0xDDAF35A193617ABACC417349AE20413112E6FA4E89A97EA20A9EEEE64B55D39A#256 ++
      0x2192992A274FC1A836BA3C23A3FEEBBD454D4423643CE80E2A9AC94FA54CA49F#256 := by
  decide +kernel

end Sys2Proof.Machine

namespace Sys2Proof.Proofs

open Sys2Proof.Machine

/-- Settles O45: HASH completes inside the register file, and its next state is as stated whatever the
value hashed. -/
theorem hashResults : Obligations.HashResults := by
  refine ⟨fun s => ⟨_, (execHashIt_next s _).mpr rfl, rfl, rfl, rfl, ⟨rfl, rfl, rfl⟩, fun _ => rfl, rfl,
    ⟨rfl, rfl⟩, ⟨rfl, rfl⟩, ⟨rfl, rfl, rfl, rfl, rfl, rfl⟩, State.advance_pcValue _⟩,
    fun op1 op2 s h1 h2 => ?_⟩
  exact ⟨_, (execHash_next s _).mpr ⟨h2, h1, rfl⟩, State.hashed_results op1 _⟩

/-- Settles O46: the block of the four registers is the padded message, and the compression is computed.
-/
theorem hashOfAbc : Obligations.HashOfAbc := by
  intro s h4 h5 h6 h7
  have hblock : (s.setSha sha512Init).advance.regGroup 4 = abcBlock := by
    change s.reg 7 ++ s.reg 6 ++ s.reg 5 ++ s.reg 4 = abcBlock
    rw [h4, h5, h6, h7]
    rfl
  have hsha : (s.setSha sha512Init).advance.sha = sha512Init := rfl
  refine ⟨_, _, (execHashIt_next s _).mpr rfl, (execHash_next _ _).mpr ⟨by decide, by decide, rfl⟩,
    ?high, ?low⟩
  case high =>
    rw [hblock, hsha, sha512Compress_abcBlock]
    exact (State.setRegPair_high 1 _).trans (by decide +kernel)
  case low =>
    rw [hblock, hsha, sha512Compress_abcBlock]
    exact (State.setRegPair_low 1 _).trans (by decide +kernel)

/-- Settles O47: when each meaning completes and when it faults, and the slices of a group. -/
theorem registerGroupRules : Obligations.RegisterGroupRules := by
  intro op1 op2 op3 s
  refine ⟨fun h => ⟨(execHash_fault s).mpr ⟨.inl h, rfl⟩, (execTmacIt_fault s).mpr ⟨h, rfl⟩⟩,
    fun h => ⟨(execHash_fault s).mpr ⟨.inr h, rfl⟩, (execScb_fault s).mpr ⟨h, rfl⟩⟩,
    fun h2 => ⟨⟨_, (execTmacIt_next s _).mpr ⟨h2, rfl⟩⟩,
      fun h1 => ⟨_, (execHash_next s _).mpr ⟨h2, h1, rfl⟩⟩⟩,
    fun h1 => ⟨_, (execScb_next s _).mpr ⟨h1, rfl⟩⟩, State.regGroup_extract_first op2,
    State.regGroup_extract_reg op2 (k := 1) (by decide), State.regGroup_extract_reg op2 (k := 2) (by decide),
    State.regGroup_extract_reg op2 (k := 3) (by decide)⟩

/-- Settles O48: when each completes, and the frame of a change of the TMAC state. -/
theorem tmacResults : Obligations.TmacResults := by
  refine ⟨fun op2 s h => ⟨_, (execTmacIt_next s _).mpr ⟨h, rfl⟩, State.setTmac_results _⟩,
    fun op2 imm s h => ⟨_, (execTmacIs_next s _).mpr ⟨initstringImmOk_of_lt h, rfl⟩, ?is⟩,
    fun op2 s => ⟨_, rfl, ?up⟩, fun op1 s => ⟨_, rfl, ?rd⟩⟩
  case is => rw [initstringN_eq]; exact State.setTmac_results _
  case up => rw [tmacBlock_eq]; exact State.setTmac_results _
  case rd =>
    exact ⟨State.setReg_reg_same s op1 _, rfl, rfl, State.setReg_sameRegsBut op1 _, ⟨rfl, rfl, rfl⟩,
      fun _ => rfl, rfl, ⟨rfl, rfl⟩, ⟨rfl, rfl⟩, ⟨rfl, rfl, rfl, rfl, rfl, rfl⟩, State.advance_pcValue _⟩

/-- Settles O49: a slice of a part of the mask is a slice of the group, which lies in one register. -/
theorem tmacMaskParts : Obligations.TmacMaskParts := by
  intro op2 s
  refine ⟨?_, ?_, ?_, ?_, ?_, ?_⟩
  · rw [maskShareA, extract_extract _ (by decide)]
    exact State.regGroup_extract_first op2
  · rw [maskShareA, extract_extract _ (by decide)]
    exact State.regGroup_extract op2 (k := 1) (p := 0) (by decide) (by decide)
  · rw [maskShareB, extract_extract _ (by decide)]
    exact State.regGroup_extract op2 (k := 1) (p := 144) (by decide) (by decide)
  · rw [maskShareB, extract_extract _ (by decide)]
    exact State.regGroup_extract_reg op2 (k := 2) (by decide)
  · rw [maskShareB, extract_extract _ (by decide)]
    exact State.regGroup_extract op2 (k := 3) (p := 0) (by decide) (by decide)
  · rw [maskGuard]
    exact State.regGroup_extract op2 (k := 3) (p := 32) (by decide) (by decide)

/-- Settles O50: one register write and one draw counted. -/
theorem randomValueResult : Obligations.RandomValueResult := fun op1 s =>
  ⟨_, rfl, State.setReg_reg_same s op1 _, rfl, rfl, State.setReg_sameRegsBut op1 _, ⟨rfl, rfl, rfl⟩,
    fun _ => rfl, rfl, ⟨rfl, rfl⟩, ⟨rfl, rfl⟩, ⟨rfl, rfl, rfl, rfl, rfl, rfl⟩, State.advance_pcValue _⟩

/-- Settles O51: SCB completes inside the register file and writes a register pair. -/
theorem blindScalarResult : Obligations.BlindScalarResult := fun op1 _ _ s h =>
  ⟨_, (execScb_next s _).mpr ⟨h, rfl⟩, State.setRegPair_low op1 _, State.setRegPair_high op1 _,
    ⟨rfl, rfl, rfl⟩, State.setRegPair_advance_onlyRegs op1 _⟩

end Sys2Proof.Proofs

/-! PROOFS. The key bus (R236 to R239) and the Immediate bits that no sub-field names (R91). -/

namespace Sys2Proof.Machine

variable {s : State} {w : Word}

/-- A field is 0 exactly when the word has no bit in the field's mask. -/
theorem extract_eq_zero_iff {n p q : Nat} (x c : BitVec n)
    (hc : ∀ k < n, c.getLsbD k = (decide (p ≤ k) && decide (k < p + q))) :
    x.extractLsb' p q = 0#q ↔ x &&& c = 0#n := by
  constructor
  · intro h
    apply BitVec.eq_of_getLsbD_eq
    intro k hk
    rw [BitVec.getLsbD_and, hc k hk, BitVec.getLsbD_zero]
    by_cases hin : p ≤ k ∧ k < p + q
    · have hbit := congrArg (fun y => y.getLsbD (k - p)) h
      have hback : p + (k - p) = k := by omega
      simp only [BitVec.getLsbD_extractLsb', hback, show k - p < q by omega, decide_true, Bool.true_and,
        BitVec.getLsbD_zero] at hbit
      rw [hbit, Bool.false_and]
    · rw [← Bool.decide_and, decide_eq_false hin, Bool.and_false]
  · intro h
    apply BitVec.eq_of_getLsbD_eq
    intro j hj
    have hbit := congrArg (fun y => y.getLsbD (p + j)) h
    rw [BitVec.getLsbD_extractLsb', BitVec.getLsbD_zero, decide_eq_true hj, Bool.true_and]
    by_cases hn : p + j < n
    · simpa [hc _ hn, hj] using hbit
    · exact BitVec.getLsbD_of_ge x _ (by omega)

theorem keyImmOk_iff (imm : Imm) : keyImmOk imm = true ↔ imm &&& 0x0E0 = 0 := by
  rw [keyImmOk, beq_iff_eq]
  exact extract_eq_zero_iff imm 0x0E0 (by decide)

theorem kboImmOk_iff (imm : Imm) : kboImmOk imm = true ↔ imm &&& 0x0F0 = 0 := by
  rw [kboImmOk, beq_iff_eq]
  exact extract_eq_zero_iff imm 0x0F0 (by decide)

theorem initstringImmOk_iff (imm : Imm) : initstringImmOk imm = true ↔ imm &&& 0xF00 = 0 := by
  rw [initstringImmOk, beq_iff_eq]
  exact extract_eq_zero_iff imm 0xF00 (by decide)

/-! ### The parts of a request, as numbers -/

theorem keyType_toNat (imm : Imm) : (keyType imm).toNat = imm.toNat / 256 :=
  toNat_extract_top (m := 8) (n := 4) imm

theorem keySlot_toNat (v : Val) : (keySlot v).toNat = v.toNat % 256 := by
  simp [keySlot]

theorem keyOffset_toNat (imm : Imm) : (keyOffset imm).toNat = imm.toNat % 32 * 8 := by
  rw [keyOffset, BitVec.toNat_append, BitVec.extractLsb'_toNat, Nat.shiftLeft_eq]
  simp

theorem keyOperation_toNat (imm : Imm) : (keyOperation imm).toNat = imm.toNat % 16 := by
  simp [keyOperation]

/-- What the end of a request leaves unchanged (R236, R30). -/
theorem State.endRequest_frame (ev : KbusEvent) (err : Bool) :
    let t := s.endRequest ev err
    t.flagZ = s.flagZ ∧ t.flagC = s.flagC ∧ t.regs = s.regs ∧ SameMem s t ∧ t.rar = s.rar ∧
      t.draws = s.draws ∧ SameUnits s t ∧ SameStatus s t ∧ SamePlatform s t ∧ Advanced s t :=
  ⟨rfl, rfl, rfl, fun _ => rfl, rfl, rfl, ⟨rfl, rfl⟩, ⟨rfl, rfl⟩, ⟨rfl, rfl, rfl, rfl, rfl, rfl⟩,
    State.advance_pcValue _⟩

/-! ### Unnamed Immediate bits (R91) -/

theorem State.fetchedWord_of_fetch (h : s.fetch = some w) : s.fetchedWord = w := by
  rw [State.fetchedWord, h, Option.getD_some]

end Sys2Proof.Machine

namespace Sys2Proof.Proofs

open Sys2Proof.Machine

/-- Settles O52: each completes when the unnamed bits are 0, and the parts of its request are slices
read as numbers. -/
theorem keyBusResults : Obligations.KeyBusResults := by
  refine ⟨fun op1 op2 imm s h => ?ldk, fun op1 op2 imm s h => ?stk, fun op2 imm s h => ?kbo⟩
  case ldk =>
    rcases hans : Config.kbusRead s.kbusLog (keyType imm) (keySlot (s.reg op2)) (keyOffset imm) with
      ⟨err, data⟩
    obtain ⟨hz, hc, -, hrest⟩ := (s.setReg op1 data).endRequest_frame
      (.read (keyType imm) (keySlot (s.reg op2)) (keyOffset imm) err data) err
    have hexec := (execLdk_next (op1 := op1) s _).mpr ⟨(keyImmOk_iff imm).mpr h, err, data, hans.symm, rfl⟩
    exact ⟨_, _, _, _, err, data, hexec, hans.symm, keyType_toNat imm, keySlot_toNat _, keyOffset_toNat imm,
      State.setReg_reg_same s op1 data, rfl, rfl, hz, hc, State.setReg_sameRegsBut op1 data, hrest⟩
  case stk =>
    exact ⟨_, _, _, _, _, (execStk_next s _).mpr ⟨(keyImmOk_iff imm).mpr h, _, rfl, rfl⟩, rfl,
      keyType_toNat imm, keySlot_toNat _, keyOffset_toNat imm, rfl, rfl, State.endRequest_frame _ _⟩
  case kbo =>
    exact ⟨_, _, _, _, _, (execKbo_next s _).mpr ⟨(kboImmOk_iff imm).mpr h, _, rfl, rfl⟩, rfl,
      keyType_toNat imm, keySlot_toNat _, keyOperation_toNat imm, rfl, rfl, State.endRequest_frame _ _⟩

/-- Settles O53: the check of each meaning is the zero test of the unnamed bits, and the word at the pc
is the one fetched. -/
theorem unnamedImmediateBitsFault : Obligations.UnnamedImmediateBitsFault := by
  intro op1 op2 imm s w hw
  rw [← State.fetchedWord_of_fetch hw]
  refine ⟨fun h => ?key, fun h => ?kbo, fun h => ?tmacIs⟩
  case key =>
    rw [Ne, ← keyImmOk_iff] at h
    exact ⟨if_neg h, if_neg h⟩
  case kbo =>
    rw [Ne, ← kboImmOk_iff] at h
    exact if_neg h
  case tmacIs =>
    rw [Ne, ← initstringImmOk_iff] at h
    exact if_neg h

end Sys2Proof.Proofs

/-! PROOFS. Control transfer (R24, R33, R34, R270 to R283). -/

namespace Sys2Proof.Machine

variable {s t u : State}

theorem targetOk_eq_false_iff {a : Addr} : targetOk a = false ↔ a.toNat % 4 ≠ 0 := by
  rw [← Bool.not_eq_true, targetOk_iff]

/-- A transfer to `n`: the jump half of R272 and R281. -/
theorem State.jump_results (s : State) (n : Addr) :
    (n.toNat % 4 = 0 → ∃ t, s.jump n = .next t ∧ WentTo n t ∧ t.regs = s.regs ∧ SameFlags s t ∧
      SameMem s t ∧ SameRest s t) ∧
    (n.toNat % 4 ≠ 0 → s.jump n = .fault (.misalignedTarget s.pcValue n)) := by
  refine ⟨fun h => ⟨_, (s.jump_next _).mpr ⟨targetOk_iff.mpr h, rfl⟩, ⟨rfl, rfl⟩, rfl, ⟨rfl, rfl, rfl⟩,
    fun _ => rfl, ?rest⟩, fun h => s.jump_fault.mpr ⟨targetOk_eq_false_iff.mpr h, rfl⟩⟩
  simp [SameRest, SameUnits, SameOutside, SameStatus, SamePlatform]

theorem execRet_of_cons {n : Addr} {rest : List Addr} (h : s.rar = n :: rest) :
    execRet s = (s.setRar rest).jump n := by
  rw [execRet, State.rarPop, h]

theorem execRet_of_empty (h : s.rar = []) : execRet s = .fault (.rarUnderflow s.pcValue) := by
  rw [execRet, State.rarPop, h]
  rfl

/-- A CALL that passes its checks pushes and transfers (R273). -/
theorem execCall_of_room {n : Addr} (hpc : s.pcValue + 4 ≤ 0xFFFC) (hn : n.toNat % 4 = 0)
    (hroom : s.rar.length ≠ s.rarDepth.val) :
    execCall n s = .next ((s.setRar ((s.pc + 4) :: s.rar)).setPc n) :=
  (execCall_next s _).mpr ⟨hpc, targetOk_iff.mpr hn, hroom, rfl⟩

/-- The return address of a CALL that completes, as a number: it does not wrap (R273). -/
theorem returnAddress_toNat (h : s.pcValue + 4 ≤ 0xFFFC) : (s.pc + 4).toNat = s.pcValue + 4 := by
  cases hcarry : s.pcCarry
  case true =>
    simp only [State.pcValue, hcarry, if_true] at h
    omega
  case false =>
    simp only [State.pcValue, hcarry, Bool.false_eq_true, if_false] at h ⊢
    rw [BitVec.toNat_add, show (4 : Addr).toNat = 4 from rfl]
    omega

end Sys2Proof.Machine

namespace Sys2Proof.Proofs

open Sys2Proof.Machine

/-- Settles O54: each of the six is the branch template of R272 with its flag and wanted value. -/
theorem conditionalBranchResults : Obligations.ConditionalBranchResults := by
  intro mk flag wanted hmem n s
  have hexec : exec (mk n) s = s.branch (flag s == wanted) n := by
    simp only [List.mem_cons, List.not_mem_nil, or_false, Prod.mk.injEq] at hmem
    rcases hmem with ⟨rfl, rfl, rfl⟩ | ⟨rfl, rfl, rfl⟩ | ⟨rfl, rfl, rfl⟩ | ⟨rfl, rfl, rfl⟩ |
      ⟨rfl, rfl, rfl⟩ | ⟨rfl, rfl, rfl⟩
    all_goals simp [exec, execBrz, execBrnz, execBrc, execBrnc, execBre, execBrne]
  obtain ⟨hgo, hfault⟩ := s.jump_results n
  rw [hexec]
  refine ⟨fun h => ?taken, fun h => ?misaligned, fun h => ?notTaken⟩
  case taken => simpa only [h, beq_self_eq_true, State.branch, if_true] using hgo
  case misaligned => simpa only [h, beq_self_eq_true, State.branch, if_true] using hfault
  case notTaken =>
    rw [beq_false_of_ne h]
    exact ⟨_, rfl, ⟨rfl, rfl, rfl⟩, State.advance_onlyRegs⟩

/-- Settles O55: JMP is the shared transfer. -/
theorem jumpResults : Obligations.JumpResults := fun n s => s.jump_results n

/-- Settles O56: the checks of CALL in their order. -/
theorem callResults : Obligations.CallResults := by
  intro n s
  refine ⟨fun hpc hn hroom => ?room, fun hpc => if_pos hpc, fun hpc hn => ?misaligned,
    fun hpc hn hfull => ?full, fun hpc hn hempty => ?empty⟩
  case room =>
    exact ⟨_, execCall_of_room hpc hn hroom.ne, ⟨rfl, rfl⟩, rfl, rfl, ⟨rfl, rfl, rfl⟩, fun _ => rfl,
      ⟨rfl, rfl⟩, ⟨rfl, rfl⟩, ⟨rfl, rfl⟩, ⟨rfl, rfl, rfl, rfl, rfl, rfl⟩⟩
  case misaligned =>
    rw [exec, execCall, if_neg (by omega), targetOk_eq_false_iff.mpr hn, if_neg Bool.false_ne_true, raise]
  case full =>
    rw [exec, execCall, if_neg (by omega), if_pos (targetOk_iff.mpr hn), State.rarPush, if_pos hfull]
    rfl
  case empty =>
    have hroom : s.rar.length ≠ s.rarDepth.val := by
      rw [hempty]
      exact s.rarDepth.property.ne
    exact ⟨_, execCall_of_room hpc hn hroom, by rw [State.setPc_rar, State.setRar_rar, hempty]⟩

/-- Settles O57: RET is a pop and the shared transfer. -/
theorem returnResults : Obligations.ReturnResults := by
  intro s
  refine ⟨fun ra rest hrar hra => ?aligned, fun ra rest hrar hra => ?misaligned, execRet_of_empty⟩
  case aligned =>
    exact ⟨_, (execRet_next s _).mpr ⟨ra, rest, hrar, targetOk_iff.mpr hra, rfl⟩, ⟨rfl, rfl⟩, rfl, rfl,
      ⟨rfl, rfl, rfl⟩, fun _ => rfl, ⟨rfl, rfl⟩, ⟨rfl, rfl⟩, ⟨rfl, rfl⟩, ⟨rfl, rfl, rfl, rfl, rfl, rfl⟩⟩
  case misaligned =>
    exact (execRet_of_cons hrar).trans ((s.setRar rest).jump_results ra |>.2 hra)

/-- Settles O58: the return address is aligned because the pc of the CALL was, and it did not wrap. -/
theorem returnComesBackAfterCall : Obligations.ReturnComesBackAfterCall := by
  rintro n s t u ⟨hpc, -⟩ hcall hrar
  obtain ⟨hle, -, -, rfl⟩ := (execCall_next s t).mp hcall
  have htarget : targetOk (s.pc + 4) = true := targetOk_iff.mpr (toNat_add_four_mod hpc)
  exact ⟨_, (execRet_next u _).mpr ⟨s.pc + 4, s.rar, hrar, htarget, rfl⟩, returnAddress_toNat hle, rfl, rfl⟩

/-- Settles O59: END writes two fields. -/
theorem endResult : Obligations.EndResult := fun _ =>
  ⟨_, rfl, rfl, rfl, rfl, rfl, rfl, ⟨rfl, rfl, rfl⟩, fun _ => rfl, rfl, ⟨rfl, rfl⟩, ⟨rfl, rfl⟩,
    ⟨rfl, rfl, rfl, rfl, rfl, rfl⟩⟩

/-- Settles O60: NOP is the sequential advance alone. -/
theorem nopResult : Obligations.NopResult := fun _ =>
  ⟨_, rfl, rfl, ⟨rfl, rfl, rfl⟩, State.advance_onlyRegs⟩

end Sys2Proof.Proofs
